-- ==== Sys2Proof/Word.lean ====
section
/-! DEFINITION. The word types of the hardware: 32-bit words (`00_scope.md` R5 XLEN) and bytes (`20_memory.md` R40). -/

namespace Sys2Proof

/-- A 32-bit value: a register, the pc, a guest address, an instruction word (XLEN = 32, R5; R7). -/
abbrev Word := BitVec 32

/-- The unit of memory and of the console (R32, R40). -/
abbrev Byte := BitVec 8

end Sys2Proof
end

