-- ==== Sys2Proof/Config.lean ====
section
/-! DEFINITION. The implementation parameters of `00_scope.md` R5: the fixed ones as constants, the OPEN ones as the fields of
`Params`, a configuration as parameters that meet the constraints of R5 and R6, and the free values the spec gives no default for. -/

namespace Sys2Proof

/-- UART_ADDR, the console data control address (R5). -/
def uartAddr : Word := 0x10000000

/-- UART_STATUS_ADDR, the key-pending control address (R5). -/
def uartStatusAddr : Word := 0x10000005

/-- ID_ADDR, the identification control address (R5). -/
def idAddr : Word := 0x60000000

/-- ID_VALUE, what a load from ID_ADDR returns (R5, R54). -/
def idValue : Word := 67

/-- HART_ID, the reset value of x10 (R5, decision D4). -/
def hartId : Word := 0

/-- QUANTUM, the scheduler's default batch size (R5, R99); outside the block and without architectural effect. -/
def quantum : Nat := 1024

/-- The OPEN parameters of R5. A parameter is a constant of a run (R35). -/
structure Params where
  /-- RAM_BASE: the guest address of byte 0 of the memory image (D2). -/
  ramBase : Word
  /-- DRAM_SIZE: the size of the memory image in bytes (D3). -/
  dramSize : Nat
  /-- MTVEC_FALLBACK: where a trap goes when mtvec is zero (D17). -/
  mtvecFallback : Word
  /-- SYSCON_ADDR: the power-off and reset request port (D8). -/
  sysconAddr : Word
  /-- SYSCON_POWEROFF: the value that requests power-off (D8). -/
  sysconPowerOff : Word
  /-- SYSCON_RESET: the value that requests a reset (D8). -/
  sysconReset : Word
  /-- TIMERL_ADDR: the low half of the cycle counter (D9). -/
  timerLAddr : Word
  /-- TIMERH_ADDR: the high half of the cycle counter (D9). -/
  timerHAddr : Word
  /-- MATCHL_ADDR: the low half of the timer compare register (D9). -/
  matchLAddr : Word
  /-- MATCHH_ADDR: the high half of the timer compare register (D9). -/
  matchHAddr : Word
  /-- HEX_UPPERCASE: letter case of the rendering of `ConsoleHex` (D22). -/
  hexUppercase : Bool
  /-- RESULT_TRAPPED: the numeral of the result `Trapped` (D29). -/
  resultTrapped : Int
  /-- RESULT_POWEROFF: the numeral of the result `PowerOff` (D29). -/
  resultPowerOff : Int
  /-- RESULT_RESET: the numeral of the result `ResetRequest` (D29). -/
  resultReset : Int
deriving DecidableEq, Repr

/-- The eight control addresses (R6). -/
def Params.controlAddrs (p : Params) : List Word :=
  [uartAddr, uartStatusAddr, idAddr, p.sysconAddr, p.timerLAddr, p.timerHAddr, p.matchLAddr, p.matchHAddr]

/-- The numerals of the four result codes, `Normal` being zero (R97). -/
def Params.resultCodes (p : Params) : List Int :=
  [0, p.resultTrapped, p.resultPowerOff, p.resultReset]

/-- The constraints of R5 and R6: DRAM_SIZE a multiple of 4 with 8 <= DRAM_SIZE <= 2^31, MTVEC_FALLBACK not RAM_BASE, the control
addresses pairwise distinct, the result codes nonzero and pairwise distinct. DESIGN CHOICE (assumption 16), unsafe: nothing more is
asked, so a configuration with RAM_BASE + DRAM_SIZE > 2^32 is one, and its RAM window wraps through address 0. -/
abbrev Params.Valid (p : Params) : Prop :=
  p.dramSize % 4 = 0 ∧ 8 ≤ p.dramSize ∧ p.dramSize ≤ 2 ^ 31 ∧ p.mtvecFallback ≠ p.ramBase ∧
    p.controlAddrs.Nodup ∧ p.resultCodes.Nodup

/-- A configuration of this hardware. Parameters that violate a constraint are not one (`93_implementation_defined.md` 1.3, "refuse"):
no such value can be built. -/
structure Config extends Params where
  valid : toParams.Valid
deriving DecidableEq, Repr

/-- FREE VALUE. The word MTVEC_FALLBACK is made from: the spec gives it no value and no default (R259, D17). -/
opaque Config.freeFallback : Word

/-- FREE VALUE. The number RESULT_TRAPPED is made from (R97, D29: no default). -/
opaque Config.freeTrapped : Int

/-- FREE VALUE. The number RESULT_POWEROFF is made from (R97, D29: no default). -/
opaque Config.freePowerOff : Int

/-- FREE VALUE. The number RESULT_RESET is made from (R97, D29: no default). -/
opaque Config.freeReset : Int

/-- A word other than `base`: `w` itself wherever that is one. -/
def Config.otherThan (base w : Word) : Word := if w = base then base + 1 else w

/-- A number outside `taken`: `v` itself wherever that is one. -/
def Config.outside (taken : List Int) (v : Int) : Int := if v ∈ taken then taken.foldr max 0 + 1 else v

/-- RESULT_TRAPPED of the default configuration: any nonzero number. -/
def Config.trappedCode : Int := Config.outside [0] Config.freeTrapped

/-- RESULT_POWEROFF of the default configuration: any number other than the codes before it. -/
def Config.powerOffCode : Int := Config.outside [0, Config.trappedCode] Config.freePowerOff

/-- RESULT_RESET of the default configuration: any number other than the codes before it. -/
def Config.resetCode : Int := Config.outside [0, Config.trappedCode, Config.powerOffCode] Config.freeReset

/-- The suggested defaults of R5, with free values where R5 gives none. -/
def Params.default : Params where
  ramBase := 0x80000000
  dramSize := 0x04000000
  mtvecFallback := Config.otherThan 0x80000000 Config.freeFallback
  sysconAddr := 0x11100000
  sysconPowerOff := 0x5555
  sysconReset := 0x7777
  timerLAddr := 0x1100BFF8
  timerHAddr := 0x1100BFFC
  matchLAddr := 0x11004000
  matchHAddr := 0x11004004
  hexUppercase := false
  resultTrapped := Config.trappedCode
  resultPowerOff := Config.powerOffCode
  resultReset := Config.resetCode

theorem Config.otherThan_ne (base w : Word) : Config.otherThan base w ≠ base := by
  unfold Config.otherThan
  split
  · simp
  · assumption

theorem Config.le_foldr_max (taken : List Int) (v : Int) (h : v ∈ taken) : v ≤ taken.foldr max 0 := by
  induction taken with
  | nil => cases h
  | cons a l ih =>
    simp only [List.foldr_cons]
    rcases List.mem_cons.mp h with rfl | h
    · exact le_max_left _ _
    · exact le_trans (ih h) (le_max_right _ _)

theorem Config.outside_not_mem (taken : List Int) (v : Int) : Config.outside taken v ∉ taken := by
  unfold Config.outside
  split
  · intro h
    have := Config.le_foldr_max taken _ h
    omega
  · assumption

theorem Config.resultCodes_nodup : Params.default.resultCodes.Nodup := by
  have h1 := Config.outside_not_mem [0] Config.freeTrapped
  have h2 := Config.outside_not_mem [0, Config.trappedCode] Config.freePowerOff
  have h3 := Config.outside_not_mem [0, Config.trappedCode, Config.powerOffCode] Config.freeReset
  rw [← Config.trappedCode] at h1
  rw [← Config.powerOffCode] at h2
  rw [← Config.resetCode] at h3
  simp only [List.mem_cons, List.not_mem_nil, or_false, not_or] at h1 h2 h3
  simp only [Params.resultCodes, Params.default, List.nodup_cons, List.mem_cons, List.not_mem_nil, or_false, not_or,
    not_false_eq_true, List.nodup_nil, and_true]
  exact ⟨⟨Ne.symm h1, Ne.symm h2.1, Ne.symm h3.1⟩, ⟨Ne.symm h2.2, Ne.symm h3.2.1⟩, Ne.symm h3.2.2⟩

theorem Params.default_valid : Params.default.Valid :=
  ⟨by decide, by decide, by decide, Config.otherThan_ne _ _, by decide, Config.resultCodes_nodup⟩

/-- The configuration a run starts in when nothing else is said: the defaults of R5. -/
def Config.default : Config where
  toParams := Params.default
  valid := Params.default_valid

end Sys2Proof
end

