-- ==== Sys2Proof/Syntax.lean ====
section
/-! DEFINITION. The instructions: one constructor for each of the 68 rows of the opcode table (`30_encoding.md` R80), its operands
the fields the formats of R71 to R78 give it. -/

namespace Sys2Proof

/-- A general register number 0 to 31 (R10). -/
abbrev Reg := Fin 32

/-- A CSR number: the 12 bits 31:20 of a CSR instruction (R29, R76). -/
abbrev CsrNum := BitVec 12

/-- The 68 instructions. The fields a rule ignores (`aq`, `rl`, those of FENCE and FENCE.I) are kept, so that an instruction has one
encoding. -/
inductive Instr where
  /-- LUI (R101: load upper immediate; `imm` is `ir[31:12]`). -/
  | lui (rd : Reg) (imm : BitVec 20)
  /-- AUIPC (R102: add upper immediate to pc). -/
  | auipc (rd : Reg) (imm : BitVec 20)
  /-- ADDI (R103). -/
  | addi (rd rs1 : Reg) (imm : BitVec 12)
  /-- SLTI (R104). -/
  | slti (rd rs1 : Reg) (imm : BitVec 12)
  /-- SLTIU (R105). -/
  | sltiu (rd rs1 : Reg) (imm : BitVec 12)
  /-- XORI (R106). -/
  | xori (rd rs1 : Reg) (imm : BitVec 12)
  /-- ORI (R107). -/
  | ori (rd rs1 : Reg) (imm : BitVec 12)
  /-- ANDI (R108). -/
  | andi (rd rs1 : Reg) (imm : BitVec 12)
  /-- SLLI (R109). -/
  | slli (rd rs1 : Reg) (shamt : BitVec 5)
  /-- SRLI (R110). -/
  | srli (rd rs1 : Reg) (shamt : BitVec 5)
  /-- SRAI (R111). -/
  | srai (rd rs1 : Reg) (shamt : BitVec 5)
  /-- ADD (R112). -/
  | add (rd rs1 rs2 : Reg)
  /-- SUB (R113). -/
  | sub (rd rs1 rs2 : Reg)
  /-- SLL (R114). -/
  | sll (rd rs1 rs2 : Reg)
  /-- SLT (R115). -/
  | slt (rd rs1 rs2 : Reg)
  /-- SLTU (R116). -/
  | sltu (rd rs1 rs2 : Reg)
  /-- XOR (R117). -/
  | xor (rd rs1 rs2 : Reg)
  /-- SRL (R118). -/
  | srl (rd rs1 rs2 : Reg)
  /-- SRA (R119). -/
  | sra (rd rs1 rs2 : Reg)
  /-- OR (R120). -/
  | or (rd rs1 rs2 : Reg)
  /-- AND (R121). -/
  | and (rd rs1 rs2 : Reg)
  /-- JAL (R141: jump and link; bit 0 of the offset is 0). -/
  | jal (rd : Reg) (imm : BitVec 21)
  /-- JALR (R142: jump and link register). -/
  | jalr (rd rs1 : Reg) (imm : BitVec 12)
  /-- BEQ (R143; bit 0 of the offset is 0). -/
  | beq (rs1 rs2 : Reg) (imm : BitVec 13)
  /-- BNE (R144; bit 0 of the offset is 0). -/
  | bne (rs1 rs2 : Reg) (imm : BitVec 13)
  /-- BLT (R145; bit 0 of the offset is 0). -/
  | blt (rs1 rs2 : Reg) (imm : BitVec 13)
  /-- BGE (R146; bit 0 of the offset is 0). -/
  | bge (rs1 rs2 : Reg) (imm : BitVec 13)
  /-- BLTU (R147; bit 0 of the offset is 0). -/
  | bltu (rs1 rs2 : Reg) (imm : BitVec 13)
  /-- BGEU (R148; bit 0 of the offset is 0). -/
  | bgeu (rs1 rs2 : Reg) (imm : BitVec 13)
  /-- LB (R161). -/
  | lb (rd rs1 : Reg) (imm : BitVec 12)
  /-- LH (R162). -/
  | lh (rd rs1 : Reg) (imm : BitVec 12)
  /-- LW (R163). -/
  | lw (rd rs1 : Reg) (imm : BitVec 12)
  /-- LBU (R164). -/
  | lbu (rd rs1 : Reg) (imm : BitVec 12)
  /-- LHU (R165). -/
  | lhu (rd rs1 : Reg) (imm : BitVec 12)
  /-- SB (R166: `rs1` the base, `rs2` the data). -/
  | sb (rs1 rs2 : Reg) (imm : BitVec 12)
  /-- SH (R167: `rs1` the base, `rs2` the data). -/
  | sh (rs1 rs2 : Reg) (imm : BitVec 12)
  /-- SW (R168: `rs1` the base, `rs2` the data). -/
  | sw (rs1 rs2 : Reg) (imm : BitVec 12)
  /-- MUL (R181). -/
  | mul (rd rs1 rs2 : Reg)
  /-- MULH (R182). -/
  | mulh (rd rs1 rs2 : Reg)
  /-- MULHSU (R183). -/
  | mulhsu (rd rs1 rs2 : Reg)
  /-- MULHU (R184). -/
  | mulhu (rd rs1 rs2 : Reg)
  /-- DIV (R185). -/
  | div (rd rs1 rs2 : Reg)
  /-- DIVU (R186). -/
  | divu (rd rs1 rs2 : Reg)
  /-- REM (R187). -/
  | rem (rd rs1 rs2 : Reg)
  /-- REMU (R188). -/
  | remu (rd rs1 rs2 : Reg)
  /-- LR.W (R201: load-reserved). -/
  | lrW (aq rl : Bool) (rd rs1 : Reg)
  /-- SC.W (R202: store-conditional). -/
  | scW (aq rl : Bool) (rd rs1 rs2 : Reg)
  /-- AMOSWAP.W (R203). -/
  | amoswapW (aq rl : Bool) (rd rs1 rs2 : Reg)
  /-- AMOADD.W (R204). -/
  | amoaddW (aq rl : Bool) (rd rs1 rs2 : Reg)
  /-- AMOXOR.W (R205). -/
  | amoxorW (aq rl : Bool) (rd rs1 rs2 : Reg)
  /-- AMOAND.W (R206). -/
  | amoandW (aq rl : Bool) (rd rs1 rs2 : Reg)
  /-- AMOOR.W (R207). -/
  | amoorW (aq rl : Bool) (rd rs1 rs2 : Reg)
  /-- AMOMIN.W (R208). -/
  | amominW (aq rl : Bool) (rd rs1 rs2 : Reg)
  /-- AMOMAX.W (R209). -/
  | amomaxW (aq rl : Bool) (rd rs1 rs2 : Reg)
  /-- AMOMINU.W (R210). -/
  | amominuW (aq rl : Bool) (rd rs1 rs2 : Reg)
  /-- AMOMAXU.W (R211). -/
  | amomaxuW (aq rl : Bool) (rd rs1 rs2 : Reg)
  /-- FENCE (R220: every field is ignored). -/
  | fence (fm pred succ : BitVec 4) (rs1 rd : Reg)
  /-- FENCE.I (R221: every field is ignored). -/
  | fenceI (imm : BitVec 12) (rs1 rd : Reg)
  /-- ECALL (R222). -/
  | ecall
  /-- EBREAK (R223). -/
  | ebreak
  /-- MRET (R224). -/
  | mret
  /-- WFI (R225). -/
  | wfi
  /-- CSRRW (R226). -/
  | csrrw (rd : Reg) (csr : CsrNum) (rs1 : Reg)
  /-- CSRRS (R227). -/
  | csrrs (rd : Reg) (csr : CsrNum) (rs1 : Reg)
  /-- CSRRC (R228). -/
  | csrrc (rd : Reg) (csr : CsrNum) (rs1 : Reg)
  /-- CSRRWI (R229). -/
  | csrrwi (rd : Reg) (csr : CsrNum) (uimm : BitVec 5)
  /-- CSRRSI (R230). -/
  | csrrsi (rd : Reg) (csr : CsrNum) (uimm : BitVec 5)
  /-- CSRRCI (R231). -/
  | csrrci (rd : Reg) (csr : CsrNum) (uimm : BitVec 5)
deriving DecidableEq, Repr

end Sys2Proof
end

