-- ==== Sys2Proof/Decode.lean ====
section
/-! DEFINITION. The decoder and, after it, the encoder, both written from `30_encoding.md`: the fields (R71 to R78), the major opcodes
(R79), the minor codes (the prose list of R80), the illegal space (R81), and the opcode table with its mask and match columns. -/

namespace Sys2Proof

/-- Why a word is no instruction. Executing one raises `IllegalInstruction` whatever the reason (R81). -/
inductive DecodeError where
  /-- Fewer than the four bytes of an instruction (R70); raised by `decode` only. -/
  | truncated
  /-- R81 (a): bits 1:0 are not `11`. -/
  | notThirtyTwoBit
  /-- R81 (b): a major opcode that is none of the twelve of R79. -/
  | unknownOpcode
  /-- R81 (c): a minor code marked illegal under a major opcode of R79. -/
  | unknownMinor
deriving DecidableEq, Repr

/-! ### The fields of an instruction word -/

/-- `opcode`, bits 6:0 (R71). -/
def opcodeOf (w : Word) : BitVec 7 := w.extractLsb' 0 7

/-- `rd`, bits 11:7 (R71). -/
def rdOf (w : Word) : Reg := (w.extractLsb' 7 5).toFin

/-- `funct3`, bits 14:12 (R71). -/
def funct3Of (w : Word) : BitVec 3 := w.extractLsb' 12 3

/-- `rs1`, bits 19:15 (R71). -/
def rs1Of (w : Word) : Reg := (w.extractLsb' 15 5).toFin

/-- `rs2`, bits 24:20 (R71). -/
def rs2Of (w : Word) : Reg := (w.extractLsb' 20 5).toFin

/-- `funct7`, bits 31:25 (R71). -/
def funct7Of (w : Word) : BitVec 7 := w.extractLsb' 25 7

/-- `funct5`, bits 31:27 of the atomic form (R78). -/
def funct5Of (w : Word) : BitVec 5 := w.extractLsb' 27 5

/-- `aq`, bit 26 of the atomic form (R78). -/
def aqOf (w : Word) : Bool := w.getLsbD 26

/-- `rl`, bit 25 of the atomic form (R78). -/
def rlOf (w : Word) : Bool := w.getLsbD 25

/-- The 12 bits of `imm_I`, bits 31:20 (R73). -/
def immIOf (w : Word) : BitVec 12 := w.extractLsb' 20 12

/-- `shamt`, bits 24:20 of the shift-immediate form (R73). -/
def shamtOf (w : Word) : BitVec 5 := w.extractLsb' 20 5

/-- The 12 bits of `imm_S` (R74). -/
def immSOf (w : Word) : BitVec 12 := w.extractLsb' 25 7 ++ w.extractLsb' 7 5

/-- The 13 bits of `imm_B`, bit 0 of them 0 (R75). -/
def immBOf (w : Word) : BitVec 13 :=
  w.extractLsb' 31 1 ++ w.extractLsb' 7 1 ++ w.extractLsb' 25 6 ++ w.extractLsb' 8 4 ++ 0#1

/-- The upper 20 bits of `imm_U`, bits 31:12 (R77). -/
def immUOf (w : Word) : BitVec 20 := w.extractLsb' 12 20

/-- The 21 bits of `imm_J`, bit 0 of them 0 (R77). -/
def immJOf (w : Word) : BitVec 21 :=
  w.extractLsb' 31 1 ++ w.extractLsb' 12 8 ++ w.extractLsb' 20 1 ++ w.extractLsb' 21 10 ++ 0#1

/-- `csr`, bits 31:20 of a CSR instruction (R76). -/
def csrOf (w : Word) : CsrNum := w.extractLsb' 20 12

/-- `uimm`, bits 19:15 of a CSR immediate form (R76). -/
def uimmOf (w : Word) : BitVec 5 := w.extractLsb' 15 5

/-- `fm`, bits 31:28 of FENCE (R220). -/
def fmOf (w : Word) : BitVec 4 := w.extractLsb' 28 4

/-- `pred`, bits 27:24 of FENCE (R220). -/
def predOf (w : Word) : BitVec 4 := w.extractLsb' 24 4

/-- `succ`, bits 23:20 of FENCE (R220). -/
def succOf (w : Word) : BitVec 4 := w.extractLsb' 20 4

/-! ### The decoder -/

/-- LOAD (`0x03`), by funct3 (R80). -/
def decodeLoad (w : Word) : Except DecodeError Instr :=
  match funct3Of w with
  | 0b000 => .ok (.lb (rdOf w) (rs1Of w) (immIOf w))
  | 0b001 => .ok (.lh (rdOf w) (rs1Of w) (immIOf w))
  | 0b010 => .ok (.lw (rdOf w) (rs1Of w) (immIOf w))
  | 0b100 => .ok (.lbu (rdOf w) (rs1Of w) (immIOf w))
  | 0b101 => .ok (.lhu (rdOf w) (rs1Of w) (immIOf w))
  | _ => .error .unknownMinor

/-- MISC-MEM (`0x0F`), by funct3; every other bit is ignored (R80, R220, R221). -/
def decodeMiscMem (w : Word) : Except DecodeError Instr :=
  match funct3Of w with
  | 0b000 => .ok (.fence (fmOf w) (predOf w) (succOf w) (rs1Of w) (rdOf w))
  | 0b001 => .ok (.fenceI (immIOf w) (rs1Of w) (rdOf w))
  | _ => .error .unknownMinor

/-- OP-IMM (`0x13`), by funct3; the shifts need their funct7 (R80). -/
def decodeOpImm (w : Word) : Except DecodeError Instr :=
  match funct3Of w with
  | 0b000 => .ok (.addi (rdOf w) (rs1Of w) (immIOf w))
  | 0b010 => .ok (.slti (rdOf w) (rs1Of w) (immIOf w))
  | 0b011 => .ok (.sltiu (rdOf w) (rs1Of w) (immIOf w))
  | 0b100 => .ok (.xori (rdOf w) (rs1Of w) (immIOf w))
  | 0b110 => .ok (.ori (rdOf w) (rs1Of w) (immIOf w))
  | 0b111 => .ok (.andi (rdOf w) (rs1Of w) (immIOf w))
  | 0b001 =>
    match funct7Of w with
    | 0b0000000 => .ok (.slli (rdOf w) (rs1Of w) (shamtOf w))
    | _ => .error .unknownMinor
  | 0b101 =>
    match funct7Of w with
    | 0b0000000 => .ok (.srli (rdOf w) (rs1Of w) (shamtOf w))
    | 0b0100000 => .ok (.srai (rdOf w) (rs1Of w) (shamtOf w))
    | _ => .error .unknownMinor

/-- STORE (`0x23`), by funct3 (R80). -/
def decodeStore (w : Word) : Except DecodeError Instr :=
  match funct3Of w with
  | 0b000 => .ok (.sb (rs1Of w) (rs2Of w) (immSOf w))
  | 0b001 => .ok (.sh (rs1Of w) (rs2Of w) (immSOf w))
  | 0b010 => .ok (.sw (rs1Of w) (rs2Of w) (immSOf w))
  | _ => .error .unknownMinor

/-- AMO (`0x2F`): funct3 must be `010`; by funct5, LR.W with rs2 zero; aq and rl any (R80, R200, R201). -/
def decodeAmo (w : Word) : Except DecodeError Instr :=
  match funct3Of w with
  | 0b010 =>
    match funct5Of w with
    | 0b00010 => if rs2Of w = 0 then .ok (.lrW (aqOf w) (rlOf w) (rdOf w) (rs1Of w)) else .error .unknownMinor
    | 0b00011 => .ok (.scW (aqOf w) (rlOf w) (rdOf w) (rs1Of w) (rs2Of w))
    | 0b00001 => .ok (.amoswapW (aqOf w) (rlOf w) (rdOf w) (rs1Of w) (rs2Of w))
    | 0b00000 => .ok (.amoaddW (aqOf w) (rlOf w) (rdOf w) (rs1Of w) (rs2Of w))
    | 0b00100 => .ok (.amoxorW (aqOf w) (rlOf w) (rdOf w) (rs1Of w) (rs2Of w))
    | 0b01100 => .ok (.amoandW (aqOf w) (rlOf w) (rdOf w) (rs1Of w) (rs2Of w))
    | 0b01000 => .ok (.amoorW (aqOf w) (rlOf w) (rdOf w) (rs1Of w) (rs2Of w))
    | 0b10000 => .ok (.amominW (aqOf w) (rlOf w) (rdOf w) (rs1Of w) (rs2Of w))
    | 0b10100 => .ok (.amomaxW (aqOf w) (rlOf w) (rdOf w) (rs1Of w) (rs2Of w))
    | 0b11000 => .ok (.amominuW (aqOf w) (rlOf w) (rdOf w) (rs1Of w) (rs2Of w))
    | 0b11100 => .ok (.amomaxuW (aqOf w) (rlOf w) (rdOf w) (rs1Of w) (rs2Of w))
    | _ => .error .unknownMinor
  | _ => .error .unknownMinor

/-- OP (`0x33`), by funct7 then funct3 (R80). -/
def decodeOp (w : Word) : Except DecodeError Instr :=
  match funct7Of w with
  | 0b0000000 =>
    match funct3Of w with
    | 0b000 => .ok (.add (rdOf w) (rs1Of w) (rs2Of w))
    | 0b001 => .ok (.sll (rdOf w) (rs1Of w) (rs2Of w))
    | 0b010 => .ok (.slt (rdOf w) (rs1Of w) (rs2Of w))
    | 0b011 => .ok (.sltu (rdOf w) (rs1Of w) (rs2Of w))
    | 0b100 => .ok (.xor (rdOf w) (rs1Of w) (rs2Of w))
    | 0b101 => .ok (.srl (rdOf w) (rs1Of w) (rs2Of w))
    | 0b110 => .ok (.or (rdOf w) (rs1Of w) (rs2Of w))
    | 0b111 => .ok (.and (rdOf w) (rs1Of w) (rs2Of w))
  | 0b0100000 =>
    match funct3Of w with
    | 0b000 => .ok (.sub (rdOf w) (rs1Of w) (rs2Of w))
    | 0b101 => .ok (.sra (rdOf w) (rs1Of w) (rs2Of w))
    | _ => .error .unknownMinor
  | 0b0000001 =>
    match funct3Of w with
    | 0b000 => .ok (.mul (rdOf w) (rs1Of w) (rs2Of w))
    | 0b001 => .ok (.mulh (rdOf w) (rs1Of w) (rs2Of w))
    | 0b010 => .ok (.mulhsu (rdOf w) (rs1Of w) (rs2Of w))
    | 0b011 => .ok (.mulhu (rdOf w) (rs1Of w) (rs2Of w))
    | 0b100 => .ok (.div (rdOf w) (rs1Of w) (rs2Of w))
    | 0b101 => .ok (.divu (rdOf w) (rs1Of w) (rs2Of w))
    | 0b110 => .ok (.rem (rdOf w) (rs1Of w) (rs2Of w))
    | 0b111 => .ok (.remu (rdOf w) (rs1Of w) (rs2Of w))
  | _ => .error .unknownMinor

/-- BRANCH (`0x63`), by funct3 (R80). -/
def decodeBranch (w : Word) : Except DecodeError Instr :=
  match funct3Of w with
  | 0b000 => .ok (.beq (rs1Of w) (rs2Of w) (immBOf w))
  | 0b001 => .ok (.bne (rs1Of w) (rs2Of w) (immBOf w))
  | 0b100 => .ok (.blt (rs1Of w) (rs2Of w) (immBOf w))
  | 0b101 => .ok (.bge (rs1Of w) (rs2Of w) (immBOf w))
  | 0b110 => .ok (.bltu (rs1Of w) (rs2Of w) (immBOf w))
  | 0b111 => .ok (.bgeu (rs1Of w) (rs2Of w) (immBOf w))
  | _ => .error .unknownMinor

/-- JALR (`0x67`): funct3 `000` only (R80). -/
def decodeJalr (w : Word) : Except DecodeError Instr :=
  match funct3Of w with
  | 0b000 => .ok (.jalr (rdOf w) (rs1Of w) (immIOf w))
  | _ => .error .unknownMinor

/-- SYSTEM (`0x73`), by funct3; with funct3 `000` the whole word is matched (R80, R76). -/
def decodeSystem (w : Word) : Except DecodeError Instr :=
  match funct3Of w with
  | 0b000 =>
    if w = 0x00000073 then .ok .ecall
    else if w = 0x00100073 then .ok .ebreak
    else if w = 0x30200073 then .ok .mret
    else if w = 0x10500073 then .ok .wfi
    else .error .unknownMinor
  | 0b001 => .ok (.csrrw (rdOf w) (csrOf w) (rs1Of w))
  | 0b010 => .ok (.csrrs (rdOf w) (csrOf w) (rs1Of w))
  | 0b011 => .ok (.csrrc (rdOf w) (csrOf w) (rs1Of w))
  | 0b101 => .ok (.csrrwi (rdOf w) (csrOf w) (uimmOf w))
  | 0b110 => .ok (.csrrsi (rdOf w) (csrOf w) (uimmOf w))
  | 0b111 => .ok (.csrrci (rdOf w) (csrOf w) (uimmOf w))
  | _ => .error .unknownMinor

/-- `Decode` (R80): total on 32-bit words, strict in every fixed bit (R81). The twelve major opcodes are those of R79. -/
def decodeWord (w : Word) : Except DecodeError Instr :=
  if w.extractLsb' 0 2 ≠ 0b11 then .error .notThirtyTwoBit
  else
    match opcodeOf w with
    | 0b0000011 => decodeLoad w
    | 0b0001111 => decodeMiscMem w
    | 0b0010011 => decodeOpImm w
    | 0b0010111 => .ok (.auipc (rdOf w) (immUOf w))
    | 0b0100011 => decodeStore w
    | 0b0101111 => decodeAmo w
    | 0b0110011 => decodeOp w
    | 0b0110111 => .ok (.lui (rdOf w) (immUOf w))
    | 0b1100011 => decodeBranch w
    | 0b1100111 => decodeJalr w
    | 0b1101111 => .ok (.jal (rdOf w) (immJOf w))
    | 0b1110011 => decodeSystem w
    | _ => .error .unknownOpcode

/-- Four bytes as a word, the byte at the lowest address first: little-endian (R43, R70). -/
def wordOfBytes (b0 b1 b2 b3 : Byte) : Word := b3 ++ b2 ++ b1 ++ b0

/-- The instruction at the head of a byte string, and the bytes after it. -/
def decode : List Byte → Except DecodeError (Instr × List Byte)
  | b0 :: b1 :: b2 :: b3 :: rest =>
    match decodeWord (wordOfBytes b0 b1 b2 b3) with
    | .ok i => .ok (i, rest)
    | .error e => .error e
  | _ => .error .truncated

/-- The four bytes of a word as the hardware stores them: little-endian (R43). -/
def bytesOfWord (w : Word) : List Byte :=
  [w.extractLsb' 0 8, w.extractLsb' 8 8, w.extractLsb' 16 8, w.extractLsb' 24 8]

/-- The instruction word whose low `nbits` bits are those of `w` and whose other bits are 0. -/
def tableWord (nbits w : Nat) : Word := BitVec.ofNat 32 (w % 2 ^ nbits)

/-- What the decoder reads from the instruction whose bits are `w`, laid out in memory as the hardware stores it. -/
def decodeTableWord (nbits w : Nat) : Option Instr :=
  match decode (bytesOfWord (tableWord nbits w)) with
  | .ok (i, _) => some i
  | .error _ => none

/-! ### The encoder -/

/-- A register number as its 5-bit field (R71). -/
def regField (r : Reg) : BitVec 5 := BitVec.ofFin r

/-- R-type (R72). -/
def rType (funct7 : BitVec 7) (rs2 rs1 : Reg) (funct3 : BitVec 3) (rd : Reg) (opcode : BitVec 7) : Word :=
  funct7 ++ regField rs2 ++ regField rs1 ++ funct3 ++ regField rd ++ opcode

/-- I-type (R73). -/
def iType (imm : BitVec 12) (rs1 : Reg) (funct3 : BitVec 3) (rd : Reg) (opcode : BitVec 7) : Word :=
  imm ++ regField rs1 ++ funct3 ++ regField rd ++ opcode

/-- The shift-immediate form of the I-type (R73). -/
def shiftType (funct7 : BitVec 7) (shamt : BitVec 5) (rs1 : Reg) (funct3 : BitVec 3) (rd : Reg) (opcode : BitVec 7) : Word :=
  funct7 ++ shamt ++ regField rs1 ++ funct3 ++ regField rd ++ opcode

/-- S-type (R74). -/
def sType (imm : BitVec 12) (rs2 rs1 : Reg) (funct3 : BitVec 3) (opcode : BitVec 7) : Word :=
  imm.extractLsb' 5 7 ++ regField rs2 ++ regField rs1 ++ funct3 ++ imm.extractLsb' 0 5 ++ opcode

/-- B-type (R75). -/
def bType (imm : BitVec 13) (rs2 rs1 : Reg) (funct3 : BitVec 3) (opcode : BitVec 7) : Word :=
  imm.extractLsb' 12 1 ++ imm.extractLsb' 5 6 ++ regField rs2 ++ regField rs1 ++ funct3 ++ imm.extractLsb' 1 4 ++
    imm.extractLsb' 11 1 ++ opcode

/-- U-type (R77). -/
def uType (imm : BitVec 20) (rd : Reg) (opcode : BitVec 7) : Word := imm ++ regField rd ++ opcode

/-- J-type (R77). -/
def jType (imm : BitVec 21) (rd : Reg) (opcode : BitVec 7) : Word :=
  imm.extractLsb' 20 1 ++ imm.extractLsb' 1 10 ++ imm.extractLsb' 11 1 ++ imm.extractLsb' 12 8 ++ regField rd ++ opcode

/-- The atomic form of the R-type (R78), funct3 `010` and opcode AMO. -/
def atomicType (funct5 : BitVec 5) (aq rl : Bool) (rs2 rs1 rd : Reg) : Word :=
  funct5 ++ BitVec.ofBool aq ++ BitVec.ofBool rl ++ regField rs2 ++ regField rs1 ++ 0b010#3 ++ regField rd ++ 0b0101111#7

/-- The CSR form of the I-type with a register source (R76). -/
def csrType (csr : CsrNum) (rs1 : Reg) (funct3 : BitVec 3) (rd : Reg) : Word :=
  csr ++ regField rs1 ++ funct3 ++ regField rd ++ 0b1110011#7

/-- The CSR form of the I-type with an immediate source (R76). -/
def csrImmType (csr : CsrNum) (uimm : BitVec 5) (funct3 : BitVec 3) (rd : Reg) : Word :=
  csr ++ uimm ++ funct3 ++ regField rd ++ 0b1110011#7

/-- The word of an instruction, its fixed bits those of the opcode table of R80. -/
def encode : Instr → Word
  | .lui rd imm => uType imm rd 0b0110111
  | .auipc rd imm => uType imm rd 0b0010111
  | .addi rd rs1 imm => iType imm rs1 0b000 rd 0b0010011
  | .slti rd rs1 imm => iType imm rs1 0b010 rd 0b0010011
  | .sltiu rd rs1 imm => iType imm rs1 0b011 rd 0b0010011
  | .xori rd rs1 imm => iType imm rs1 0b100 rd 0b0010011
  | .ori rd rs1 imm => iType imm rs1 0b110 rd 0b0010011
  | .andi rd rs1 imm => iType imm rs1 0b111 rd 0b0010011
  | .slli rd rs1 shamt => shiftType 0b0000000 shamt rs1 0b001 rd 0b0010011
  | .srli rd rs1 shamt => shiftType 0b0000000 shamt rs1 0b101 rd 0b0010011
  | .srai rd rs1 shamt => shiftType 0b0100000 shamt rs1 0b101 rd 0b0010011
  | .add rd rs1 rs2 => rType 0b0000000 rs2 rs1 0b000 rd 0b0110011
  | .sub rd rs1 rs2 => rType 0b0100000 rs2 rs1 0b000 rd 0b0110011
  | .sll rd rs1 rs2 => rType 0b0000000 rs2 rs1 0b001 rd 0b0110011
  | .slt rd rs1 rs2 => rType 0b0000000 rs2 rs1 0b010 rd 0b0110011
  | .sltu rd rs1 rs2 => rType 0b0000000 rs2 rs1 0b011 rd 0b0110011
  | .xor rd rs1 rs2 => rType 0b0000000 rs2 rs1 0b100 rd 0b0110011
  | .srl rd rs1 rs2 => rType 0b0000000 rs2 rs1 0b101 rd 0b0110011
  | .sra rd rs1 rs2 => rType 0b0100000 rs2 rs1 0b101 rd 0b0110011
  | .or rd rs1 rs2 => rType 0b0000000 rs2 rs1 0b110 rd 0b0110011
  | .and rd rs1 rs2 => rType 0b0000000 rs2 rs1 0b111 rd 0b0110011
  | .jal rd imm => jType imm rd 0b1101111
  | .jalr rd rs1 imm => iType imm rs1 0b000 rd 0b1100111
  | .beq rs1 rs2 imm => bType imm rs2 rs1 0b000 0b1100011
  | .bne rs1 rs2 imm => bType imm rs2 rs1 0b001 0b1100011
  | .blt rs1 rs2 imm => bType imm rs2 rs1 0b100 0b1100011
  | .bge rs1 rs2 imm => bType imm rs2 rs1 0b101 0b1100011
  | .bltu rs1 rs2 imm => bType imm rs2 rs1 0b110 0b1100011
  | .bgeu rs1 rs2 imm => bType imm rs2 rs1 0b111 0b1100011
  | .lb rd rs1 imm => iType imm rs1 0b000 rd 0b0000011
  | .lh rd rs1 imm => iType imm rs1 0b001 rd 0b0000011
  | .lw rd rs1 imm => iType imm rs1 0b010 rd 0b0000011
  | .lbu rd rs1 imm => iType imm rs1 0b100 rd 0b0000011
  | .lhu rd rs1 imm => iType imm rs1 0b101 rd 0b0000011
  | .sb rs1 rs2 imm => sType imm rs2 rs1 0b000 0b0100011
  | .sh rs1 rs2 imm => sType imm rs2 rs1 0b001 0b0100011
  | .sw rs1 rs2 imm => sType imm rs2 rs1 0b010 0b0100011
  | .mul rd rs1 rs2 => rType 0b0000001 rs2 rs1 0b000 rd 0b0110011
  | .mulh rd rs1 rs2 => rType 0b0000001 rs2 rs1 0b001 rd 0b0110011
  | .mulhsu rd rs1 rs2 => rType 0b0000001 rs2 rs1 0b010 rd 0b0110011
  | .mulhu rd rs1 rs2 => rType 0b0000001 rs2 rs1 0b011 rd 0b0110011
  | .div rd rs1 rs2 => rType 0b0000001 rs2 rs1 0b100 rd 0b0110011
  | .divu rd rs1 rs2 => rType 0b0000001 rs2 rs1 0b101 rd 0b0110011
  | .rem rd rs1 rs2 => rType 0b0000001 rs2 rs1 0b110 rd 0b0110011
  | .remu rd rs1 rs2 => rType 0b0000001 rs2 rs1 0b111 rd 0b0110011
  | .lrW aq rl rd rs1 => atomicType 0b00010 aq rl 0 rs1 rd
  | .scW aq rl rd rs1 rs2 => atomicType 0b00011 aq rl rs2 rs1 rd
  | .amoswapW aq rl rd rs1 rs2 => atomicType 0b00001 aq rl rs2 rs1 rd
  | .amoaddW aq rl rd rs1 rs2 => atomicType 0b00000 aq rl rs2 rs1 rd
  | .amoxorW aq rl rd rs1 rs2 => atomicType 0b00100 aq rl rs2 rs1 rd
  | .amoandW aq rl rd rs1 rs2 => atomicType 0b01100 aq rl rs2 rs1 rd
  | .amoorW aq rl rd rs1 rs2 => atomicType 0b01000 aq rl rs2 rs1 rd
  | .amominW aq rl rd rs1 rs2 => atomicType 0b10000 aq rl rs2 rs1 rd
  | .amomaxW aq rl rd rs1 rs2 => atomicType 0b10100 aq rl rs2 rs1 rd
  | .amominuW aq rl rd rs1 rs2 => atomicType 0b11000 aq rl rs2 rs1 rd
  | .amomaxuW aq rl rd rs1 rs2 => atomicType 0b11100 aq rl rs2 rs1 rd
  | .fence fm pred succ rs1 rd => iType (fm ++ pred ++ succ) rs1 0b000 rd 0b0001111
  | .fenceI imm rs1 rd => iType imm rs1 0b001 rd 0b0001111
  | .ecall => 0x00000073
  | .ebreak => 0x00100073
  | .mret => 0x30200073
  | .wfi => 0x10500073
  | .csrrw rd csr rs1 => csrType csr rs1 0b001 rd
  | .csrrs rd csr rs1 => csrType csr rs1 0b010 rd
  | .csrrc rd csr rs1 => csrType csr rs1 0b011 rd
  | .csrrwi rd csr uimm => csrImmType csr uimm 0b101 rd
  | .csrrsi rd csr uimm => csrImmType csr uimm 0b110 rd
  | .csrrci rd csr uimm => csrImmType csr uimm 0b111 rd

/-- The bytes of an instruction in memory, the lowest address first. -/
def encodeBytes (i : Instr) : List Byte := bytesOfWord (encode i)

/-! ### The opcode table of R80 -/

/-- The mnemonic of an instruction, as the opcode table spells it. -/
def Instr.mnemonic : Instr → String
  | .lui _ _ => "LUI"
  | .auipc _ _ => "AUIPC"
  | .addi _ _ _ => "ADDI"
  | .slti _ _ _ => "SLTI"
  | .sltiu _ _ _ => "SLTIU"
  | .xori _ _ _ => "XORI"
  | .ori _ _ _ => "ORI"
  | .andi _ _ _ => "ANDI"
  | .slli _ _ _ => "SLLI"
  | .srli _ _ _ => "SRLI"
  | .srai _ _ _ => "SRAI"
  | .add _ _ _ => "ADD"
  | .sub _ _ _ => "SUB"
  | .sll _ _ _ => "SLL"
  | .slt _ _ _ => "SLT"
  | .sltu _ _ _ => "SLTU"
  | .xor _ _ _ => "XOR"
  | .srl _ _ _ => "SRL"
  | .sra _ _ _ => "SRA"
  | .or _ _ _ => "OR"
  | .and _ _ _ => "AND"
  | .jal _ _ => "JAL"
  | .jalr _ _ _ => "JALR"
  | .beq _ _ _ => "BEQ"
  | .bne _ _ _ => "BNE"
  | .blt _ _ _ => "BLT"
  | .bge _ _ _ => "BGE"
  | .bltu _ _ _ => "BLTU"
  | .bgeu _ _ _ => "BGEU"
  | .lb _ _ _ => "LB"
  | .lh _ _ _ => "LH"
  | .lw _ _ _ => "LW"
  | .lbu _ _ _ => "LBU"
  | .lhu _ _ _ => "LHU"
  | .sb _ _ _ => "SB"
  | .sh _ _ _ => "SH"
  | .sw _ _ _ => "SW"
  | .mul _ _ _ => "MUL"
  | .mulh _ _ _ => "MULH"
  | .mulhsu _ _ _ => "MULHSU"
  | .mulhu _ _ _ => "MULHU"
  | .div _ _ _ => "DIV"
  | .divu _ _ _ => "DIVU"
  | .rem _ _ _ => "REM"
  | .remu _ _ _ => "REMU"
  | .lrW _ _ _ _ => "LR.W"
  | .scW _ _ _ _ _ => "SC.W"
  | .amoswapW _ _ _ _ _ => "AMOSWAP.W"
  | .amoaddW _ _ _ _ _ => "AMOADD.W"
  | .amoxorW _ _ _ _ _ => "AMOXOR.W"
  | .amoandW _ _ _ _ _ => "AMOAND.W"
  | .amoorW _ _ _ _ _ => "AMOOR.W"
  | .amominW _ _ _ _ _ => "AMOMIN.W"
  | .amomaxW _ _ _ _ _ => "AMOMAX.W"
  | .amominuW _ _ _ _ _ => "AMOMINU.W"
  | .amomaxuW _ _ _ _ _ => "AMOMAXU.W"
  | .fence _ _ _ _ _ => "FENCE"
  | .fenceI _ _ _ => "FENCE.I"
  | .ecall => "ECALL"
  | .ebreak => "EBREAK"
  | .mret => "MRET"
  | .wfi => "WFI"
  | .csrrw _ _ _ => "CSRRW"
  | .csrrs _ _ _ => "CSRRS"
  | .csrrc _ _ _ => "CSRRC"
  | .csrrwi _ _ _ => "CSRRWI"
  | .csrrsi _ _ _ => "CSRRSI"
  | .csrrci _ _ _ => "CSRRCI"

/-- A row of the opcode table: its mnemonic and its mask and match columns (R80). -/
structure OpRow where
  mnemonic : String
  mask : Word
  pattern : Word
deriving DecidableEq, Repr

/-- The word is one of the row's: `(ir & mask) = match` (R80). -/
def OpRow.matches (r : OpRow) (w : Word) : Bool := w &&& r.mask == r.pattern

/-- The rows of `41_integer_alu.md` (R80). -/
def rowsIntAlu : List OpRow := [
  ⟨"LUI", 0x0000007f, 0x00000037⟩,
  ⟨"AUIPC", 0x0000007f, 0x00000017⟩,
  ⟨"ADDI", 0x0000707f, 0x00000013⟩,
  ⟨"SLTI", 0x0000707f, 0x00002013⟩,
  ⟨"SLTIU", 0x0000707f, 0x00003013⟩,
  ⟨"XORI", 0x0000707f, 0x00004013⟩,
  ⟨"ORI", 0x0000707f, 0x00006013⟩,
  ⟨"ANDI", 0x0000707f, 0x00007013⟩,
  ⟨"SLLI", 0xfe00707f, 0x00001013⟩,
  ⟨"SRLI", 0xfe00707f, 0x00005013⟩,
  ⟨"SRAI", 0xfe00707f, 0x40005013⟩,
  ⟨"ADD", 0xfe00707f, 0x00000033⟩,
  ⟨"SUB", 0xfe00707f, 0x40000033⟩,
  ⟨"SLL", 0xfe00707f, 0x00001033⟩,
  ⟨"SLT", 0xfe00707f, 0x00002033⟩,
  ⟨"SLTU", 0xfe00707f, 0x00003033⟩,
  ⟨"XOR", 0xfe00707f, 0x00004033⟩,
  ⟨"SRL", 0xfe00707f, 0x00005033⟩,
  ⟨"SRA", 0xfe00707f, 0x40005033⟩,
  ⟨"OR", 0xfe00707f, 0x00006033⟩,
  ⟨"AND", 0xfe00707f, 0x00007033⟩]

/-- The rows of `42_control_transfer.md` (R80). -/
def rowsControl : List OpRow := [
  ⟨"JAL", 0x0000007f, 0x0000006f⟩,
  ⟨"JALR", 0x0000707f, 0x00000067⟩,
  ⟨"BEQ", 0x0000707f, 0x00000063⟩,
  ⟨"BNE", 0x0000707f, 0x00001063⟩,
  ⟨"BLT", 0x0000707f, 0x00004063⟩,
  ⟨"BGE", 0x0000707f, 0x00005063⟩,
  ⟨"BLTU", 0x0000707f, 0x00006063⟩,
  ⟨"BGEU", 0x0000707f, 0x00007063⟩]

/-- The rows of `43_load_store.md` (R80). -/
def rowsLoadStore : List OpRow := [
  ⟨"LB", 0x0000707f, 0x00000003⟩,
  ⟨"LH", 0x0000707f, 0x00001003⟩,
  ⟨"LW", 0x0000707f, 0x00002003⟩,
  ⟨"LBU", 0x0000707f, 0x00004003⟩,
  ⟨"LHU", 0x0000707f, 0x00005003⟩,
  ⟨"SB", 0x0000707f, 0x00000023⟩,
  ⟨"SH", 0x0000707f, 0x00001023⟩,
  ⟨"SW", 0x0000707f, 0x00002023⟩]

/-- The rows of `44_muldiv.md` (R80). -/
def rowsMulDiv : List OpRow := [
  ⟨"MUL", 0xfe00707f, 0x02000033⟩,
  ⟨"MULH", 0xfe00707f, 0x02001033⟩,
  ⟨"MULHSU", 0xfe00707f, 0x02002033⟩,
  ⟨"MULHU", 0xfe00707f, 0x02003033⟩,
  ⟨"DIV", 0xfe00707f, 0x02004033⟩,
  ⟨"DIVU", 0xfe00707f, 0x02005033⟩,
  ⟨"REM", 0xfe00707f, 0x02006033⟩,
  ⟨"REMU", 0xfe00707f, 0x02007033⟩]

/-- The rows of `45_atomics.md` (R80). -/
def rowsAtomic : List OpRow := [
  ⟨"LR.W", 0xf9f0707f, 0x1000202f⟩,
  ⟨"SC.W", 0xf800707f, 0x1800202f⟩,
  ⟨"AMOSWAP.W", 0xf800707f, 0x0800202f⟩,
  ⟨"AMOADD.W", 0xf800707f, 0x0000202f⟩,
  ⟨"AMOXOR.W", 0xf800707f, 0x2000202f⟩,
  ⟨"AMOAND.W", 0xf800707f, 0x6000202f⟩,
  ⟨"AMOOR.W", 0xf800707f, 0x4000202f⟩,
  ⟨"AMOMIN.W", 0xf800707f, 0x8000202f⟩,
  ⟨"AMOMAX.W", 0xf800707f, 0xa000202f⟩,
  ⟨"AMOMINU.W", 0xf800707f, 0xc000202f⟩,
  ⟨"AMOMAXU.W", 0xf800707f, 0xe000202f⟩]

/-- The rows of `46_system_csr.md` (R80). -/
def rowsSystem : List OpRow := [
  ⟨"FENCE", 0x0000707f, 0x0000000f⟩,
  ⟨"FENCE.I", 0x0000707f, 0x0000100f⟩,
  ⟨"ECALL", 0xffffffff, 0x00000073⟩,
  ⟨"EBREAK", 0xffffffff, 0x00100073⟩,
  ⟨"MRET", 0xffffffff, 0x30200073⟩,
  ⟨"WFI", 0xffffffff, 0x10500073⟩,
  ⟨"CSRRW", 0x0000707f, 0x00001073⟩,
  ⟨"CSRRS", 0x0000707f, 0x00002073⟩,
  ⟨"CSRRC", 0x0000707f, 0x00003073⟩,
  ⟨"CSRRWI", 0x0000707f, 0x00005073⟩,
  ⟨"CSRRSI", 0x0000707f, 0x00006073⟩,
  ⟨"CSRRCI", 0x0000707f, 0x00007073⟩]

/-- The 68 rows of the opcode table (R80). -/
def opcodeTable : List OpRow :=
  rowsIntAlu ++ rowsControl ++ rowsLoadStore ++ rowsMulDiv ++ rowsAtomic ++ rowsSystem

end Sys2Proof
end

