-- ==== Sys2Proof/Machine/State.lean ====
section
/-! DEFINITION. The state of the machine as plain data (`10_state.md`), the reasons a step can stop, and the state after reset. -/

namespace Sys2Proof.Machine

/-- The width of a data access: 1, 2 or 4 bytes (R40, R58). -/
inductive Width where
  | byte
  | half
  | word
deriving DecidableEq, Repr

/-- The memory image (R32): the bytes that differ from what an unlisted offset reads as, in strictly rising order of offset. The key is
the OFFSET into the image, guest address minus RAM_BASE (R40). -/
abbrev Memory := List Host.Cell

/-- The synchronous exceptions (R250). -/
inductive Exception where
  | instrAddrMisaligned
  | instrAccessFault
  | illegalInstruction
  | breakpoint
  | loadAccessFault
  | storeAccessFault
  /-- ECALL executed with `priv` = the argument. -/
  | envCall (priv : BitVec 2)
deriving DecidableEq, Repr

/-- A raised exception and the information mtval receives: `raise E(info)` (R7). -/
structure Raised where
  exc : Exception
  info : Word
deriving DecidableEq, Repr

/-- The result code of a step (R97). -/
inductive StepResult where
  | normal
  | trapped (e : Exception)
  | powerOff
  | resetRequest
deriving DecidableEq, Repr

/-- The console events the block emits to the device (`00_scope.md` section 5, R50, R236). -/
inductive ConsoleEvent where
  | consoleChar (b : Byte)
  | consoleRaw (b : Byte)
  | consoleDecimal (v : Word)
  | consoleHex (v : Word)
deriving DecidableEq, Repr

/-- What the host may do between two steps of a run (`93_implementation_defined.md` part 2). -/
inductive HostInput where
  /-- `AdvanceTime(d)` (R272), between two steps only (R99). -/
  | advanceTime (d : Nat)
  /-- The terminal appends one byte to `kbd` (R31, R53). -/
  | keyTyped (b : Byte)
  /-- The host's input stream closes (R53). -/
  | closeInput
deriving DecidableEq, Repr

/-- Why the machine faults: it never does. Every error of a guest is a trap into its handler and `Step()` is total (R301), so there is
no constructor. -/
inductive Fault where
deriving DecidableEq, Repr

/-- Why the machine refuses to go on. -/
inductive Refusal where
  /-- Raised by an arm of `exec` for an instruction without a meaning. No arm raises it. Safe. -/
  | notModelled (mnemonic : String)
  /-- Raised by `step` when `halted` is 1: "no further step of this run exists" (R98). Safe. -/
  | runEnded
  /-- Raised by `restart` for an image longer than DRAM_SIZE: the loader does not produce a run (R296). Safe. -/
  | imageTooLong
deriving DecidableEq, Repr

/-- The whole state: the tuple of `10_state.md`, the device state of R31, the configuration, and five fields of the model's own
(`inputClosed`, `console`, `result`, `stepTaken`, `hostInputs`). -/
structure State where
  /-- MODEL's own place for the parameters of R5, constants of a run (R35); no step changes it. -/
  cfg : Config
  /-- x1 to x31; x0 has no storage (R10, R11). -/
  regs : Vector Word 31
  /-- The program counter (R13). -/
  pc : Word
  /-- The current privilege mode (R16). -/
  priv : BitVec 2
  /-- `MIE`, the global interrupt enable of mstatus (R17). -/
  statusMIE : Bool
  /-- `MPIE` of mstatus (R17). -/
  statusMPIE : Bool
  /-- `MPP` of mstatus (R17). -/
  statusMPP : BitVec 2
  /-- The CSR mie (R18). -/
  mie : Word
  /-- The CSR mtvec (R19). -/
  mtvec : Word
  /-- The CSR mscratch (R20). -/
  mscratch : Word
  /-- The CSR mepc (R21). -/
  mepc : Word
  /-- The CSR mcause (R22). -/
  mcause : Word
  /-- The CSR mtval (R23). -/
  mtval : Word
  /-- The free-running counter (R25). -/
  cycle : BitVec 64
  /-- The timer compare register (R26). -/
  timermatch : BitVec 64
  /-- `resv_valid` (R30). -/
  resvValid : Bool
  /-- `resv_addr` (R30). -/
  resvAddr : Word
  /-- The memory image (R32). -/
  mem : Memory
  /-- The run has ended (R37). -/
  halted : Bool
  /-- The device's end-of-input latch (R31). -/
  eofLatch : Bool
  /-- The device's pending input, first byte first (R31). -/
  kbd : List Byte
  /-- MODEL's own: whether the host reports its input stream closed (R53). -/
  inputClosed : Bool
  /-- MODEL's own: the console events emitted so far, oldest first (R50, R236). -/
  console : List ConsoleEvent
  /-- MODEL's own: what the last step returned (R97). -/
  result : StepResult
  /-- MODEL's own: whether a step of this run was taken, so that the host's turn stands between two steps (R99, R295). -/
  stepTaken : Bool
  /-- MODEL's own: what the host does before each of the coming steps, the next step first. Past the end it does nothing. -/
  hostInputs : List (List HostInput)
deriving DecidableEq, Repr

/-- The state after reset at process start (R36, R290), with the default configuration and an empty image (R296). HART_ID is 0, so x10
is 0 like the other registers. -/
def State.reset : State where
  cfg := Config.default
  regs := Vector.replicate 31 0
  pc := Config.default.ramBase
  priv := 3
  statusMIE := false
  statusMPIE := false
  statusMPP := 0
  mie := 0
  mtvec := 0
  mscratch := 0
  mepc := 0
  mcause := 0
  mtval := 0
  cycle := 0
  timermatch := 0
  resvValid := false
  resvAddr := 0
  mem := []
  halted := false
  eofLatch := false
  kbd := []
  inputClosed := false
  console := []
  result := .normal
  stepTaken := false
  hostInputs := []

end Sys2Proof.Machine
end

