-- ==== Sys2Proof/Machine/Ops.lean ====
section
/-! DEFINITION. The named operations over registers, the memory image, the end of a step, traps and the timer condition. -/

namespace Sys2Proof.Machine

/-! ### General registers (`10_state.md` section 1) -/

/-- `x[r]` (R11): x0 reads 0. -/
def State.x (s : State) (r : Reg) : Word :=
  if h : r.val = 0 then 0 else s.regs[r.val - 1]'(by omega)

/-- `x[r] <- v` (R11): a write to x0 is discarded. -/
def State.setX (s : State) (r : Reg) (v : Word) : State :=
  { s with regs := if h : r.val = 0 then s.regs else s.regs.set (r.val - 1) v (by omega) }

/-! ### The end of a step (`40_step_loop.md` R90, R95 to R98) -/

/-- The results that end a run (R98). -/
def StepResult.endsRun : StepResult → Bool
  | .normal => false
  | .trapped _ => false
  | .powerOff => true
  | .resetRequest => true

/-- The numeric code of a result (R97): `Normal` is zero, the others are parameters. -/
def StepResult.code (p : Params) : StepResult → Int
  | .normal => 0
  | .trapped _ => p.resultTrapped
  | .powerOff => p.resultPowerOff
  | .resetRequest => p.resultReset

/-- The last lines of `Step()` for an instruction that retires: pc, `cycle + 1`, the result, `halted` (R90, R95, R96, R98). -/
def State.commit (s : State) (result : StepResult) (next : Word) : State :=
  { s with pc := next, cycle := s.cycle + 1, result := result, halted := s.halted || result.endsRun }

/-- An instruction that retires with `Normal` and does not redirect control (R95). -/
def State.retire (s : State) : State := s.commit .normal (s.pc + 4)

/-- An instruction whose one effect is `x[rd] <- v`. -/
def State.writeback (s : State) (rd : Reg) (v : Word) : State := (s.setX rd v).retire

/-! ### The memory image (`20_memory.md` section 1) -/

/-- What an offset that is not listed reads as: memory beyond the image is zero (R296, D31). -/
def Memory.unlisted : Byte := 0

/-- The byte at an offset. -/
def Memory.read : Memory → Nat → Byte
  | [], _ => Memory.unlisted
  | (k, b) :: m, a => if a = k then b else Memory.read m a

/-- The image with the byte at an offset replaced, in canonical form again. -/
def Memory.write : Memory → Nat → Byte → Memory
  | [], a, v => if v = Memory.unlisted then [] else [(a, v)]
  | (k, b) :: m, a, v =>
    if a < k then if v = Memory.unlisted then (k, b) :: m else (a, v) :: (k, b) :: m
    else if a = k then if v = Memory.unlisted then m else (a, v) :: m
    else (k, b) :: Memory.write m a v

/-- Every listed offset is above `lo`. -/
def Memory.above (lo : Nat) : Memory → Bool
  | [] => true
  | (k, _) :: m => decide (lo < k) && Memory.above lo m

/-- The canonical form: offsets strictly rising, no entry equal to what an unlisted offset reads as. -/
def Memory.wf : Memory → Bool
  | [] => true
  | (k, b) :: m => decide (b ≠ Memory.unlisted) && Memory.above k m && Memory.wf m

/-- Every listed offset is one of the image: below `n` (R32). -/
def Memory.below (n : Nat) : Memory → Bool
  | [] => true
  | (k, _) :: m => decide (k < n) && Memory.below n m

/-- The number of bytes of an access (R40). -/
def Width.bytes : Width → Nat
  | .byte => 1
  | .half => 2
  | .word => 4

/-- The low 8n bits of a word, the rest zero: an n-byte value (R40, R46). -/
def Width.truncate (n : Width) (v : Word) : Word :=
  match n with
  | .byte => (v.extractLsb' 0 8).setWidth 32
  | .half => (v.extractLsb' 0 16).setWidth 32
  | .word => v

/-- The n bytes from `off` as a value, little-endian (R41, R43). -/
def Memory.load (m : Memory) (off : Nat) : Width → Word
  | .byte => (m.read off).setWidth 32
  | .half => (m.read (off + 1) ++ m.read off).setWidth 32
  | .word => m.read (off + 3) ++ m.read (off + 2) ++ m.read (off + 1) ++ m.read off

/-- The image with the low n bytes of `v` at `off`, little-endian (R42, R43). -/
def Memory.store (m : Memory) (off : Nat) (n : Width) (v : Word) : Memory :=
  match n with
  | .byte => m.write off (v.extractLsb' 0 8)
  | .half => (m.write off (v.extractLsb' 0 8)).write (off + 1) (v.extractLsb' 8 8)
  | .word =>
    (((m.write off (v.extractLsb' 0 8)).write (off + 1) (v.extractLsb' 8 8)).write (off + 2) (v.extractLsb' 16 8)).write
      (off + 3) (v.extractLsb' 24 8)

/-- `BusLoad(off, n)` (R41): total, 0 out of range; also the host bus port. -/
def State.busLoad (s : State) (off : Nat) (n : Width) : Word :=
  if off + n.bytes > s.cfg.dramSize then 0 else s.mem.load off n

/-- `BusStore(off, n, v)` (R42): total, dropped out of range; also the host bus port. -/
def State.busStore (s : State) (off : Nat) (n : Width) (v : Word) : State :=
  { s with mem := if off + n.bytes > s.cfg.dramSize then s.mem else s.mem.store off n v }

/-- `Off(addr)` (R48): the offset of a guest address, modulo 2^32. -/
def State.offset (s : State) (addr : Word) : Nat := (addr - s.cfg.ramBase).toNat

/-- `InRam(addr, n)` (R48). -/
def State.inRam (s : State) (addr : Word) (n : Width) : Bool := decide (s.offset addr + n.bytes ≤ s.cfg.dramSize)

/-- The byte of RAM at a guest address, as a statement reads it. -/
def State.ramByte (s : State) (addr : Word) : Byte := s.mem.read (s.offset addr)

/-! ### Traps (`60_exceptions.md` sections 1, 3, 4) -/

/-- `CauseOf(E)`: the code mcause receives, bit 31 clear (R250). -/
def causeOf : Exception → Word
  | .instrAddrMisaligned => 0
  | .instrAccessFault => 1
  | .illegalInstruction => 2
  | .breakpoint => 3
  | .loadAccessFault => 5
  | .storeAccessFault => 7
  | .envCall priv => 8 + priv.setWidth 32

/-- The cause of the machine timer interrupt (R250, R266). -/
def timerCause : Word := 0x80000007

/-- `TrapEntry(cause, epc, tval)` (R258), with the fallback of R259. -/
def State.trapEntry (s : State) (cause epc tval : Word) : State :=
  { s with
    mepc := epc
    mcause := cause
    mtval := tval
    statusMPIE := s.statusMIE
    statusMIE := false
    statusMPP := s.priv
    priv := 3
    pc := if s.mtvec = 0 then s.cfg.mtvecFallback else s.mtvec }

/-- A step whose instruction raises an exception: nothing of the instruction is committed, `cycle + 1`, trap entry with the address of
the instruction, `Trapped(cause)` (R90, R96, R256, R257). -/
def State.raise (s : State) (r : Raised) : State :=
  { s.trapEntry (causeOf r.exc) s.pc r.info with cycle := s.cycle + 1, result := .trapped r.exc }

/-- `TrapReturn()` (R262). -/
def State.trapReturn (s : State) : State :=
  { s with pc := s.mepc, priv := s.statusMPP, statusMIE := s.statusMPIE, statusMPIE := true, statusMPP := 0 }

/-! ### The timer (`60_exceptions.md` section 6) -/

/-- `MTIP` (R265). -/
def State.mtip (s : State) : Bool := decide (s.timermatch ≠ 0) && decide (s.timermatch ≤ s.cycle)

/-- `TimerInterruptReady()` (R266). -/
def State.timerInterruptReady (s : State) : Bool :=
  s.mtip && s.mie.getLsbD 7 && (decide (s.priv ≠ 3) || s.statusMIE)

/-- The step that takes the timer interrupt: no fetch, `cycle` unchanged, `Normal` (R90, R91, R266). -/
def State.takeTimerInterrupt (s : State) : State :=
  { s.trapEntry timerCause s.pc 0 with result := .normal }

/-- `AdvanceTime(d)` (R272): modulo 2^64. -/
def State.advanceTime (s : State) (d : Nat) : State := { s with cycle := s.cycle + BitVec.ofNat 64 d }

/-! ### The reservation (`10_state.md` R30) -/

/-- LR.W sets the reservation (R201). -/
def State.reserve (s : State) (addr : Word) : State := { s with resvValid := true, resvAddr := addr }

/-- SC.W clears it (R202). -/
def State.clearReservation (s : State) : State := { s with resvValid := false }

end Sys2Proof.Machine
end

