-- ==== Sys2Proof/Machine/Operands.lean ====
section
/-! DEFINITION. The operand forms: the immediates (`30_encoding.md` section 2), shift amounts, effective addresses and the extension
of loaded values. -/

namespace Sys2Proof.Machine

/-- `imm_I` (R73): sign-extended from 12 bits. -/
def immI (imm : BitVec 12) : Word := imm.signExtend 32

/-- `imm_S` (R74): sign-extended from 12 bits. -/
def immS (imm : BitVec 12) : Word := imm.signExtend 32

/-- `imm_B` (R75): sign-extended from 13 bits. -/
def immB (imm : BitVec 13) : Word := imm.signExtend 32

/-- `imm_U` (R77): the 20 bits in bits 31:12, the low 12 bits zero. -/
def immU (imm : BitVec 20) : Word := imm ++ 0#12

/-- `imm_J` (R77): sign-extended from 21 bits. -/
def immJ (imm : BitVec 21) : Word := imm.signExtend 32

/-- `zext_5(uimm)` (R76). -/
def immUimm (uimm : BitVec 5) : Word := uimm.setWidth 32

/-- The shift amount of the register forms: `x[rs2][4:0]` (R114, R122). -/
def shiftAmount (v : Word) : Nat := (v.extractLsb' 0 5).toNat

/-- The effective address of a load, `(x[rs1] + imm_I) mod 2^32` (R160). -/
def State.loadAddr (s : State) (rs1 : Reg) (imm : BitVec 12) : Word := s.x rs1 + immI imm

/-- The effective address of a store, `(x[rs1] + imm_S) mod 2^32` (R160). -/
def State.storeAddr (s : State) (rs1 : Reg) (imm : BitVec 12) : Word := s.x rs1 + immS imm

/-- The target of JALR: the sum with bit 0 cleared (R142). -/
def State.jalrTarget (s : State) (rs1 : Reg) (imm : BitVec 12) : Word := (s.x rs1 + immI imm) &&& 0xFFFFFFFE

/-- `sext_8n` of an n-byte value (R161, R162). -/
def signExtendLoaded (n : Width) (v : Word) : Word :=
  match n with
  | .byte => (v.extractLsb' 0 8).signExtend 32
  | .half => (v.extractLsb' 0 16).signExtend 32
  | .word => v

/-- `zext_8n` of an n-byte value (R164, R165). -/
def zeroExtendLoaded (n : Width) (v : Word) : Word := n.truncate v

end Sys2Proof.Machine
end

