-- ==== Sys2Proof/Machine/Flags.lean ====
section
/-! DEFINITION. The hardware has no flags and no condition codes (`10_state.md` section 3): a comparison writes 0 or 1 to a general
register or decides a branch. These are the comparisons. -/

namespace Sys2Proof.Machine

/-- `a <s b` (R7). -/
def ltSigned (a b : Word) : Bool := decide (a.toInt < b.toInt)

/-- `a <u b` (R7). -/
def ltUnsigned (a b : Word) : Bool := decide (a.toNat < b.toNat)

/-- The 32-bit value 0 or 1 a comparison writes (R104). -/
def boolWord (b : Bool) : Word := if b then 1 else 0

end Sys2Proof.Machine
end

