-- ==== Sys2Proof/Machine/Device.lean ====
section
/-! DEFINITION. The device side of the control addresses and device CSRs: the keyboard, the console and its rendering, the timer
registers, the request port (`20_memory.md` section 3, `46_system_csr.md` R236), and what the host does between steps. -/

namespace Sys2Proof.Machine

/-! ### The keyboard (R53) -/

/-- The answer of `KeyPending()`: never once the end of input is latched or the host reports its stream closed (R53). -/
def State.keyPending (s : State) : Bool :=
  if s.eofLatch then false
  else if s.inputClosed then false
  else !s.kbd.isEmpty

/-- What `KeyPending()` leaves: the latch is set when the host reports its stream closed (R53). -/
def State.pollKeyboard (s : State) : State := { s with eofLatch := s.eofLatch || s.inputClosed }

/-- The byte `KeyTake()` returns (R53). -/
def State.keyByte (s : State) : Byte := s.kbd.headD 0

/-- What `KeyTake()` leaves: the byte is removed (R53). -/
def State.takeKey (s : State) : State := { s with kbd := s.kbd.tail }

/-- One key read: poll, and if a key is pending take it, else answer `none` (R51, R235). -/
def State.readKey (s : State) (none : Word) : Word × State :=
  if s.keyPending then (s.keyByte.setWidth 32, s.pollKeyboard.takeKey) else (none, s.pollKeyboard)

/-- One status read: 1 if a key is pending, else 0; nothing is consumed (R52, R235). -/
def State.readKeyStatus (s : State) : Word × State := (boolWord s.keyPending, s.pollKeyboard)

/-! ### The console (R50, R236) -/

/-- The block emits one event. -/
def State.emit (s : State) (e : ConsoleEvent) : State := { s with console := s.console ++ [e] }

/-- The ASCII byte of a decimal digit. -/
def decDigit (n : Nat) : Byte := BitVec.ofNat 8 (48 + n)

/-- The digits of `n` in front of `acc`, at most `fuel` of them. -/
def decDigits : Nat → Nat → List Byte → List Byte
  | 0, _, acc => acc
  | fuel + 1, n, acc =>
    if n < 10 then decDigit n :: acc else decDigits fuel (n / 10) (decDigit (n % 10) :: acc)

/-- `Dec(v)`: the shortest decimal numeral of `unsigned(v)` in ASCII (R236). -/
def renderDec (v : Word) : List Byte := decDigits 10 v.toNat []

/-- The ASCII byte of a hexadecimal digit, lower case unless `upper` (R236, HEX_UPPERCASE). -/
def hexDigit (upper : Bool) (n : Nat) : Byte :=
  if n < 10 then BitVec.ofNat 8 (48 + n)
  else if upper then BitVec.ofNat 8 (55 + n)
  else BitVec.ofNat 8 (87 + n)

/-- `Hex8(v)`: exactly eight hexadecimal digits, most significant first (R236). -/
def renderHex (upper : Bool) (v : Word) : List Byte :=
  [28, 24, 20, 16, 12, 8, 4, 0].map fun shift => hexDigit upper (v.extractLsb' shift 4).toNat

/-- The bytes the device writes for an event (R236). -/
def ConsoleEvent.render (upper : Bool) : ConsoleEvent → List Byte
  | .consoleChar b => [b]
  | .consoleRaw b => [b]
  | .consoleDecimal v => renderDec v
  | .consoleHex v => renderHex upper v

/-- The console's byte stream so far: the events in order (R61). -/
def State.consoleBytes (s : State) : List Byte := s.console.flatMap (ConsoleEvent.render s.cfg.hexUppercase)

/-! ### The control addresses (R47, R49) -/

/-- The control load addresses (R49). -/
inductive LoadPort where
  | uart
  | uartStatus
  | id
  | timerL
  | timerH
  | matchL
  | matchH
deriving DecidableEq, Repr

/-- The control store addresses (R49). -/
inductive StorePort where
  | uart
  | syscon
  | matchL
  | matchH
deriving DecidableEq, Repr

/-- The control load address an access starts at, by equality of all 32 bits (R47, R49). -/
def loadPort (p : Params) (addr : Word) : Option LoadPort :=
  if addr = uartAddr then some .uart
  else if addr = uartStatusAddr then some .uartStatus
  else if addr = idAddr then some .id
  else if addr = p.timerLAddr then some .timerL
  else if addr = p.timerHAddr then some .timerH
  else if addr = p.matchLAddr then some .matchL
  else if addr = p.matchHAddr then some .matchH
  else none

/-- The control store address an access starts at (R47, R49). -/
def storePort (p : Params) (addr : Word) : Option StorePort :=
  if addr = uartAddr then some .uart
  else if addr = p.sysconAddr then some .syscon
  else if addr = p.matchLAddr then some .matchL
  else if addr = p.matchHAddr then some .matchH
  else none

/-- `v[31:0]` of a 64-bit register. -/
def lowHalf (v : BitVec 64) : Word := v.extractLsb' 0 32

/-- `v[63:32]` of a 64-bit register. -/
def highHalf (v : BitVec 64) : Word := v.extractLsb' 32 32

/-- `DevLoad(addr)`: the device's 32-bit word and the state after the read (R51, R52, R54, R55). -/
def State.devLoad (s : State) : LoadPort → Word × State
  | .uart => s.readKey 0
  | .uartStatus => s.readKeyStatus
  | .id => (idValue, s)
  | .timerL => (lowHalf s.cycle, s)
  | .timerH => (highHalf s.cycle, s)
  | .matchL => (lowHalf s.timermatch, s)
  | .matchH => (highHalf s.timermatch, s)

/-- The result code a store to SYSCON_ADDR requests (R56). -/
def requestOf (p : Params) (w : Word) : StepResult :=
  if w = p.sysconPowerOff then .powerOff
  else if w = p.sysconReset then .resetRequest
  else .normal

/-- `DevStore(addr, w)`: the state after the write and the step's result code (R50, R55, R56). -/
def State.devStore (s : State) (port : StorePort) (w : Word) : State × StepResult :=
  match port with
  | .uart => (s.emit (.consoleChar (w.extractLsb' 0 8)), .normal)
  | .syscon => (s, requestOf s.cfg.toParams w)
  | .matchL => ({ s with timermatch := highHalf s.timermatch ++ w }, .normal)
  | .matchH => ({ s with timermatch := w ++ lowHalf s.timermatch }, .normal)

/-! ### The host between steps -/

/-- One act of the host (`93_implementation_defined.md` part 2). `AdvanceTime` exists only between two steps (R99, R272): nothing touches
the block between `Reset()` and the first `Step()` (R295). The keyboard is the device's, and keys come at any time (R31). -/
def State.hostInput (s : State) : HostInput → State
  | .advanceTime d => if s.stepTaken then s.advanceTime d else s
  | .keyTyped b => { s with kbd := s.kbd ++ [b] }
  | .closeInput => { s with inputClosed := true }

/-- The host's turn before a step: the acts scheduled for it, in order (R91, R99, R272); then the step is taken. -/
def State.hostTurn (s : State) : State :=
  { (s.hostInputs.headD []).foldl State.hostInput { s with hostInputs := s.hostInputs.tail } with stepTaken := true }

end Sys2Proof.Machine
end

