-- ==== Sys2Proof/Machine/Bus.lean ====
section
/-! DEFINITION. The memory-bus arbiter, which every access of an instruction goes through: the control addresses first, then the range
check, then the image (`20_memory.md` section 2). -/

namespace Sys2Proof.Machine

/-- `MemRead(addr, n)` (R45): the 8n-bit value, zero-extended, and the state after the read; or the access fault. -/
def State.memRead (s : State) (addr : Word) (n : Width) : Except Raised (Word × State) :=
  match loadPort s.cfg.toParams addr with
  | some port => .ok (n.truncate (s.devLoad port).1, (s.devLoad port).2)
  | none =>
    if s.inRam addr n then .ok (s.busLoad (s.offset addr) n, s)
    else .error ⟨.loadAccessFault, addr⟩

/-- `MemWrite(addr, n, v)` (R46): the state after the write and the step's result code; or the access fault. The device receives the
value truncated to the width and zero-extended. -/
def State.memWrite (s : State) (addr : Word) (n : Width) (v : Word) : Except Raised (State × StepResult) :=
  match storePort s.cfg.toParams addr with
  | some port => .ok (s.devStore port (n.truncate v))
  | none =>
    if s.inRam addr n then .ok (s.busStore (s.offset addr) n v, .normal)
    else .error ⟨.storeAccessFault, addr⟩

/-- `AtomicCheck(addr, Load)` (R68): LR.W never matches a control address. -/
def State.atomicReadFault (s : State) (addr : Word) : Option Raised :=
  if s.inRam addr .word then none else some ⟨.loadAccessFault, addr⟩

/-- `AtomicCheck(addr, Store)` (R68): SC.W and the AMOs. -/
def State.atomicWriteFault (s : State) (addr : Word) : Option Raised :=
  if s.inRam addr .word then none else some ⟨.storeAccessFault, addr⟩

/-- `FetchWord(addr)` (R44): the range check of the pc, then its alignment, then the word; never a control access. -/
def State.fetchWord (s : State) (addr : Word) : Except Raised Word :=
  if s.offset addr ≥ s.cfg.dramSize then .error ⟨.instrAccessFault, addr⟩
  else if addr.extractLsb' 0 2 ≠ 0 then .error ⟨.instrAddrMisaligned, addr⟩
  else .ok (s.busLoad (s.offset addr) .word)

/-- Fetch and decode at the pc (R92, R93): a word that is no instruction raises `IllegalInstruction` with the word. -/
def State.fetchInstr (s : State) : Except Raised Instr :=
  match s.fetchWord s.pc with
  | .error r => .error r
  | .ok w =>
    match decodeWord w with
    | .ok i => .ok i
    | .error _ => .error ⟨.illegalInstruction, w⟩

/-- The instruction word placed where the next fetch reads it: at the pc's offset in the image. -/
def State.placeWord (s : State) (w : Word) : State := s.busStore (s.offset s.pc) .word w

end Sys2Proof.Machine
end

