-- ==== Sys2Proof/Machine/Csr.lean ====
section
/-! DEFINITION. The CSR space: which number names which register (`10_state.md` R29), `CsrRead` and `CsrWrite` (`46_system_csr.md` R235,
R236), and what the six CSR instructions have in common (R232). -/

namespace Sys2Proof.Machine

/-- The registers the CSR space reaches; every number outside the table is `unlisted` (R28, R29). -/
inductive Csr where
  | mstatus
  | mie
  | mtvec
  | mscratch
  | mepc
  | mcause
  | mtval
  | mip
  | cycle
  | time
  | cycleh
  | timeh
  | decimalOut
  | hexOut
  | rawOut
  | keyRead
  | keyPending
  | charOut
  | unlisted
deriving DecidableEq, Repr

/-- The table of R29. -/
def csrTable : List (CsrNum × Csr) := [
  (0x300, .mstatus), (0x304, .mie), (0x305, .mtvec), (0x340, .mscratch), (0x341, .mepc), (0x342, .mcause), (0x343, .mtval),
  (0x344, .mip), (0xC00, .cycle), (0xC01, .time), (0xC80, .cycleh), (0xC81, .timeh), (0x136, .decimalOut), (0x137, .hexOut),
  (0x139, .rawOut), (0x140, .keyRead), (0x141, .keyPending), (0x402, .charOut)]

/-- The register a CSR number names (R28, R29). -/
def csrNamed (n : CsrNum) : Csr := (csrTable.lookup n).getD .unlisted

/-- `CsrRead(0x300)`: `(MPP << 11) | (MPIE << 7) | (MIE << 3)` (R17). -/
def State.mstatus (s : State) : Word :=
  0#19 ++ s.statusMPP ++ 0b000#3 ++ BitVec.ofBool s.statusMPIE ++ 0b000#3 ++ BitVec.ofBool s.statusMIE ++ 0b000#3

/-- `CsrWrite(0x300, v)`: the three stored fields; `priv` is not changed (R17). -/
def State.setMstatus (s : State) (v : Word) : State :=
  { s with statusMPP := v.extractLsb' 11 2, statusMPIE := v.getLsbD 7, statusMIE := v.getLsbD 3 }

/-- `CsrRead(0x344)`: `MTIP << 7` (R24). -/
def State.mip (s : State) : Word := if s.mtip then 0x80 else 0

/-- `CsrRead(c)` of a named register (R235): the value and the state after the read. -/
def State.csrReadNamed (s : State) : Csr → Word × State
  | .mstatus => (s.mstatus, s)
  | .mie => (s.mie, s)
  | .mtvec => (s.mtvec, s)
  | .mscratch => (s.mscratch, s)
  | .mepc => (s.mepc, s)
  | .mcause => (s.mcause, s)
  | .mtval => (s.mtval, s)
  | .mip => (s.mip, s)
  | .cycle => (lowHalf s.cycle, s)
  | .time => (lowHalf s.cycle, s)
  | .cycleh => (highHalf s.cycle, s)
  | .timeh => (highHalf s.cycle, s)
  | .decimalOut => (0, s)
  | .hexOut => (0, s)
  | .rawOut => (0, s)
  | .keyRead => s.readKey 0xFFFFFFFF
  | .keyPending => s.readKeyStatus
  | .charOut => (0, s)
  | .unlisted => (0, s)

/-- `CsrWrite(c, v)` of a named register (R236). -/
def State.csrWriteNamed (s : State) (c : Csr) (v : Word) : State :=
  match c with
  | .mstatus => s.setMstatus v
  | .mie => { s with mie := v }
  | .mtvec => { s with mtvec := v }
  | .mscratch => { s with mscratch := v }
  | .mepc => { s with mepc := v }
  | .mcause => { s with mcause := v }
  | .mtval => { s with mtval := v }
  | .mip => s
  | .cycle => s
  | .time => s
  | .cycleh => s
  | .timeh => s
  | .decimalOut => s.emit (.consoleDecimal v)
  | .hexOut => s.emit (.consoleHex v)
  | .rawOut => s.emit (.consoleRaw (v.extractLsb' 0 8))
  | .keyRead => s
  | .keyPending => s
  | .charOut => s.emit (.consoleChar (v.extractLsb' 0 8))
  | .unlisted => s

/-- `CsrRead(c)` (R235). -/
def State.csrRead (s : State) (n : CsrNum) : Word × State := s.csrReadNamed (csrNamed n)

/-- `CsrWrite(c, v)` (R236). -/
def State.csrWrite (s : State) (n : CsrNum) (v : Word) : State := s.csrWriteNamed (csrNamed n) v

/-- What the six CSR instructions do (R232): read if `reads`, write `new old` if `writes`, then `x[rd] <- old`. An instruction that does
not read has `rd` = x0, so nothing is written to a register. -/
def State.csrAccess (s : State) (rd : Reg) (n : CsrNum) (reads writes : Bool) (new : Word → Word) : State :=
  let read := if reads then s.csrRead n else (0, s)
  let written := if writes then read.2.csrWrite n (new read.1) else read.2
  written.writeback rd read.1

end Sys2Proof.Machine
end

