-- ==== Sys2Proof/Machine/Boot.lean ====
section
/-! DEFINITION. Image load and reset, the host's operations before a run (`70_reset_and_hazards.md` section 1). -/

namespace Sys2Proof.Machine

/-- The bytes of an image from offset `off`, as a memory image; zero bytes are not listed (R296). -/
def imageFrom : Nat → List Byte → Memory
  | _, [] => []
  | off, b :: bs => if b = Memory.unlisted then imageFrom (off + 1) bs else (off, b) :: imageFrom (off + 1) bs

/-- `LoadImage(img)` (R296): the image at offset 0, zero bytes after it. -/
def State.loadImage (s : State) (img : List Byte) : State := { s with mem := imageFrom 0 img }

/-- `Reset()` (R290): a run begins, of which no step was taken. The memory image and the device side are not touched. -/
def State.resetHart (s : State) : State :=
  { s with
    regs := (Vector.replicate 31 0).set 9 hartId
    pc := s.cfg.ramBase
    priv := 3
    statusMIE := false
    statusMPIE := false
    statusMPP := 0
    mie := 0
    mtvec := 0
    mscratch := 0
    mepc := 0
    mcause := 0
    mtval := 0
    cycle := 0
    timermatch := 0
    resvValid := false
    resvAddr := 0
    halted := false
    result := .normal
    stepTaken := false }

/-- The start-up sequence (R295), at process start and after `ResetRequest`: image load, then `Reset()`. An image longer than DRAM_SIZE
is refused by the loader and starts no run (R296). -/
def State.restart (s : State) (img : List Byte) : Host.Outcome State Fault Refusal :=
  if img.length ≤ s.cfg.dramSize then .next (s.loadImage img).resetHart else .refused .imageTooLong

end Sys2Proof.Machine
end

