-- ==== Sys2Proof/Machine/IntAlu.lean ====
section
/-! DEFINITION. The 21 integer computational instructions (`41_integer_alu.md`). Each writes one register and retires (R100). -/

namespace Sys2Proof.Machine

/-- LUI (R101): `x[rd] <- imm_U`. -/
def execLui (rd : Reg) (imm : BitVec 20) (s : State) : Host.Outcome State Fault Refusal :=
  .next (s.writeback rd (immU imm))

/-- AUIPC (R102): `x[rd] <- pc + imm_U`. -/
def execAuipc (rd : Reg) (imm : BitVec 20) (s : State) : Host.Outcome State Fault Refusal :=
  .next (s.writeback rd (s.pc + immU imm))

/-- ADDI (R103). -/
def execAddi (rd rs1 : Reg) (imm : BitVec 12) (s : State) : Host.Outcome State Fault Refusal :=
  .next (s.writeback rd (s.x rs1 + immI imm))

/-- SLTI (R104). -/
def execSlti (rd rs1 : Reg) (imm : BitVec 12) (s : State) : Host.Outcome State Fault Refusal :=
  .next (s.writeback rd (boolWord (ltSigned (s.x rs1) (immI imm))))

/-- SLTIU (R105). -/
def execSltiu (rd rs1 : Reg) (imm : BitVec 12) (s : State) : Host.Outcome State Fault Refusal :=
  .next (s.writeback rd (boolWord (ltUnsigned (s.x rs1) (immI imm))))

/-- XORI (R106). -/
def execXori (rd rs1 : Reg) (imm : BitVec 12) (s : State) : Host.Outcome State Fault Refusal :=
  .next (s.writeback rd (s.x rs1 ^^^ immI imm))

/-- ORI (R107). -/
def execOri (rd rs1 : Reg) (imm : BitVec 12) (s : State) : Host.Outcome State Fault Refusal :=
  .next (s.writeback rd (s.x rs1 ||| immI imm))

/-- ANDI (R108). -/
def execAndi (rd rs1 : Reg) (imm : BitVec 12) (s : State) : Host.Outcome State Fault Refusal :=
  .next (s.writeback rd (s.x rs1 &&& immI imm))

/-- SLLI (R109). -/
def execSlli (rd rs1 : Reg) (shamt : BitVec 5) (s : State) : Host.Outcome State Fault Refusal :=
  .next (s.writeback rd (s.x rs1 <<< shamt.toNat))

/-- SRLI (R110). -/
def execSrli (rd rs1 : Reg) (shamt : BitVec 5) (s : State) : Host.Outcome State Fault Refusal :=
  .next (s.writeback rd (s.x rs1 >>> shamt.toNat))

/-- SRAI (R111). -/
def execSrai (rd rs1 : Reg) (shamt : BitVec 5) (s : State) : Host.Outcome State Fault Refusal :=
  .next (s.writeback rd ((s.x rs1).sshiftRight shamt.toNat))

/-- ADD (R112). -/
def execAdd (rd rs1 rs2 : Reg) (s : State) : Host.Outcome State Fault Refusal :=
  .next (s.writeback rd (s.x rs1 + s.x rs2))

/-- SUB (R113). -/
def execSub (rd rs1 rs2 : Reg) (s : State) : Host.Outcome State Fault Refusal :=
  .next (s.writeback rd (s.x rs1 - s.x rs2))

/-- SLL (R114). -/
def execSll (rd rs1 rs2 : Reg) (s : State) : Host.Outcome State Fault Refusal :=
  .next (s.writeback rd (s.x rs1 <<< shiftAmount (s.x rs2)))

/-- SLT (R115). -/
def execSlt (rd rs1 rs2 : Reg) (s : State) : Host.Outcome State Fault Refusal :=
  .next (s.writeback rd (boolWord (ltSigned (s.x rs1) (s.x rs2))))

/-- SLTU (R116). -/
def execSltu (rd rs1 rs2 : Reg) (s : State) : Host.Outcome State Fault Refusal :=
  .next (s.writeback rd (boolWord (ltUnsigned (s.x rs1) (s.x rs2))))

/-- XOR (R117). -/
def execXor (rd rs1 rs2 : Reg) (s : State) : Host.Outcome State Fault Refusal :=
  .next (s.writeback rd (s.x rs1 ^^^ s.x rs2))

/-- SRL (R118). -/
def execSrl (rd rs1 rs2 : Reg) (s : State) : Host.Outcome State Fault Refusal :=
  .next (s.writeback rd (s.x rs1 >>> shiftAmount (s.x rs2)))

/-- SRA (R119). -/
def execSra (rd rs1 rs2 : Reg) (s : State) : Host.Outcome State Fault Refusal :=
  .next (s.writeback rd ((s.x rs1).sshiftRight (shiftAmount (s.x rs2))))

/-- OR (R120). -/
def execOr (rd rs1 rs2 : Reg) (s : State) : Host.Outcome State Fault Refusal :=
  .next (s.writeback rd (s.x rs1 ||| s.x rs2))

/-- AND (R121). -/
def execAnd (rd rs1 rs2 : Reg) (s : State) : Host.Outcome State Fault Refusal :=
  .next (s.writeback rd (s.x rs1 &&& s.x rs2))

end Sys2Proof.Machine
end

