-- ==== Sys2Proof/Machine/Control.lean ====
section
/-! DEFINITION. The eight control-transfer instructions (`42_control_transfer.md`). A bad target is found by the next fetch (R140). -/

namespace Sys2Proof.Machine

/-- What the jumps have in common (R140): the link value `pc + 4` to `rd`, the target to `pc`. The target is computed first. -/
def State.jump (s : State) (rd : Reg) (target : Word) : State := (s.setX rd (s.pc + 4)).commit .normal target

/-- What the branches have in common: `if cond: pc <- pc + imm_B`, else `pc <- pc + 4`; no register is written (R140). -/
def State.branch (s : State) (cond : Bool) (imm : BitVec 13) : State :=
  if cond then s.commit .normal (s.pc + immB imm) else s.retire

/-- JAL (R141): `x[rd] <- pc + 4; pc <- pc + imm_J`. -/
def execJal (rd : Reg) (imm : BitVec 21) (s : State) : Host.Outcome State Fault Refusal :=
  .next (s.jump rd (s.pc + immJ imm))

/-- JALR (R142): `x[rs1]` is read before `rd` is written. -/
def execJalr (rd rs1 : Reg) (imm : BitVec 12) (s : State) : Host.Outcome State Fault Refusal :=
  .next (s.jump rd (s.jalrTarget rs1 imm))

/-- BEQ (R143). -/
def execBeq (rs1 rs2 : Reg) (imm : BitVec 13) (s : State) : Host.Outcome State Fault Refusal :=
  .next (s.branch (decide (s.x rs1 = s.x rs2)) imm)

/-- BNE (R144). -/
def execBne (rs1 rs2 : Reg) (imm : BitVec 13) (s : State) : Host.Outcome State Fault Refusal :=
  .next (s.branch (decide (s.x rs1 ≠ s.x rs2)) imm)

/-- BLT (R145). -/
def execBlt (rs1 rs2 : Reg) (imm : BitVec 13) (s : State) : Host.Outcome State Fault Refusal :=
  .next (s.branch (ltSigned (s.x rs1) (s.x rs2)) imm)

/-- BGE (R146). -/
def execBge (rs1 rs2 : Reg) (imm : BitVec 13) (s : State) : Host.Outcome State Fault Refusal :=
  .next (s.branch (!ltSigned (s.x rs1) (s.x rs2)) imm)

/-- BLTU (R147). -/
def execBltu (rs1 rs2 : Reg) (imm : BitVec 13) (s : State) : Host.Outcome State Fault Refusal :=
  .next (s.branch (ltUnsigned (s.x rs1) (s.x rs2)) imm)

/-- BGEU (R148). -/
def execBgeu (rs1 rs2 : Reg) (imm : BitVec 13) (s : State) : Host.Outcome State Fault Refusal :=
  .next (s.branch (!ltUnsigned (s.x rs1) (s.x rs2)) imm)

end Sys2Proof.Machine
end

