-- ==== Sys2Proof/Machine/LoadStore.lean ====
section
/-! DEFINITION. The eight loads and stores (`43_load_store.md`). -/

namespace Sys2Proof.Machine

/-- What the loads have in common (R160): the access, then the extended value to `rd`; or the access fault. -/
def State.loadTo (s : State) (rd : Reg) (addr : Word) (n : Width) (extend : Word → Word) : State :=
  match s.memRead addr n with
  | .ok (v, t) => t.writeback rd (extend v)
  | .error r => s.raise r

/-- What the stores have in common (R160): the access, with the result code it requests; or the access fault. -/
def State.storeFrom (s : State) (addr : Word) (n : Width) (v : Word) : State :=
  match s.memWrite addr n v with
  | .ok (t, result) => t.commit result (s.pc + 4)
  | .error r => s.raise r

/-- LB (R161). -/
def execLb (rd rs1 : Reg) (imm : BitVec 12) (s : State) : Host.Outcome State Fault Refusal :=
  .next (s.loadTo rd (s.loadAddr rs1 imm) .byte (signExtendLoaded .byte))

/-- LH (R162). -/
def execLh (rd rs1 : Reg) (imm : BitVec 12) (s : State) : Host.Outcome State Fault Refusal :=
  .next (s.loadTo rd (s.loadAddr rs1 imm) .half (signExtendLoaded .half))

/-- LW (R163). -/
def execLw (rd rs1 : Reg) (imm : BitVec 12) (s : State) : Host.Outcome State Fault Refusal :=
  .next (s.loadTo rd (s.loadAddr rs1 imm) .word id)

/-- LBU (R164). -/
def execLbu (rd rs1 : Reg) (imm : BitVec 12) (s : State) : Host.Outcome State Fault Refusal :=
  .next (s.loadTo rd (s.loadAddr rs1 imm) .byte (zeroExtendLoaded .byte))

/-- LHU (R165). -/
def execLhu (rd rs1 : Reg) (imm : BitVec 12) (s : State) : Host.Outcome State Fault Refusal :=
  .next (s.loadTo rd (s.loadAddr rs1 imm) .half (zeroExtendLoaded .half))

/-- SB (R166). -/
def execSb (rs1 rs2 : Reg) (imm : BitVec 12) (s : State) : Host.Outcome State Fault Refusal :=
  .next (s.storeFrom (s.storeAddr rs1 imm) .byte (s.x rs2))

/-- SH (R167). -/
def execSh (rs1 rs2 : Reg) (imm : BitVec 12) (s : State) : Host.Outcome State Fault Refusal :=
  .next (s.storeFrom (s.storeAddr rs1 imm) .half (s.x rs2))

/-- SW (R168). -/
def execSw (rs1 rs2 : Reg) (imm : BitVec 12) (s : State) : Host.Outcome State Fault Refusal :=
  .next (s.storeFrom (s.storeAddr rs1 imm) .word (s.x rs2))

end Sys2Proof.Machine
end

