-- ==== Sys2Proof/Machine/MulDiv.lean ====
section
/-! DEFINITION. The eight multiply and divide instructions (`44_muldiv.md`). None raises an exception (R180). -/

namespace Sys2Proof.Machine

/-- Bits 31:0 of the product (R181). -/
def mulLow (a b : Word) : Word := a * b

/-- `floor(p / 2^32) mod 2^32`: bits 63:32 of an exact product (R180). -/
def highWord (p : Int) : Word := BitVec.ofInt 32 (p / 2 ^ 32)

/-- The quotient of DIV (R185): rounds toward zero, with the two special cases. -/
def divSigned (a b : Word) : Word :=
  if b = 0 then 0xFFFFFFFF
  else if a = 0x80000000 ∧ b = 0xFFFFFFFF then 0x80000000
  else BitVec.ofInt 32 (a.toInt.tdiv b.toInt)

/-- The quotient of DIVU (R186). -/
def divUnsigned (a b : Word) : Word :=
  if b = 0 then 0xFFFFFFFF else BitVec.ofNat 32 (a.toNat / b.toNat)

/-- The remainder of REM (R187): the sign of the dividend, with the two special cases. -/
def remSigned (a b : Word) : Word :=
  if b = 0 then a
  else if a = 0x80000000 ∧ b = 0xFFFFFFFF then 0
  else BitVec.ofInt 32 (a.toInt - b.toInt * a.toInt.tdiv b.toInt)

/-- The remainder of REMU (R188). -/
def remUnsigned (a b : Word) : Word :=
  if b = 0 then a else BitVec.ofNat 32 (a.toNat % b.toNat)

/-- MUL (R181). -/
def execMul (rd rs1 rs2 : Reg) (s : State) : Host.Outcome State Fault Refusal :=
  .next (s.writeback rd (mulLow (s.x rs1) (s.x rs2)))

/-- MULH (R182): both operands signed. -/
def execMulh (rd rs1 rs2 : Reg) (s : State) : Host.Outcome State Fault Refusal :=
  .next (s.writeback rd (highWord ((s.x rs1).toInt * (s.x rs2).toInt)))

/-- MULHSU (R183): `x[rs1]` signed, `x[rs2]` unsigned. -/
def execMulhsu (rd rs1 rs2 : Reg) (s : State) : Host.Outcome State Fault Refusal :=
  .next (s.writeback rd (highWord ((s.x rs1).toInt * (s.x rs2).toNat)))

/-- MULHU (R184): both operands unsigned. -/
def execMulhu (rd rs1 rs2 : Reg) (s : State) : Host.Outcome State Fault Refusal :=
  .next (s.writeback rd (highWord ((s.x rs1).toNat * (s.x rs2).toNat)))

/-- DIV (R185). -/
def execDiv (rd rs1 rs2 : Reg) (s : State) : Host.Outcome State Fault Refusal :=
  .next (s.writeback rd (divSigned (s.x rs1) (s.x rs2)))

/-- DIVU (R186). -/
def execDivu (rd rs1 rs2 : Reg) (s : State) : Host.Outcome State Fault Refusal :=
  .next (s.writeback rd (divUnsigned (s.x rs1) (s.x rs2)))

/-- REM (R187). -/
def execRem (rd rs1 rs2 : Reg) (s : State) : Host.Outcome State Fault Refusal :=
  .next (s.writeback rd (remSigned (s.x rs1) (s.x rs2)))

/-- REMU (R188). -/
def execRemu (rd rs1 rs2 : Reg) (s : State) : Host.Outcome State Fault Refusal :=
  .next (s.writeback rd (remUnsigned (s.x rs1) (s.x rs2)))

end Sys2Proof.Machine
end

