-- ==== Sys2Proof/Machine/Atomic.lean ====
section
/-! DEFINITION. The eleven atomic instructions (`45_atomics.md`). `aq` and `rl` are ignored; no alignment is required (R200). -/

namespace Sys2Proof.Machine

/-- What the nine AMOs have in common (R200): read the old word, write `f old v`, the old word to `rd`; or the access fault with
nothing read or written. -/
def State.amo (s : State) (rd rs1 rs2 : Reg) (f : Word → Word → Word) : State :=
  match s.atomicWriteFault (s.x rs1) with
  | some r => s.raise r
  | none =>
    let old := s.busLoad (s.offset (s.x rs1)) .word
    (s.busStore (s.offset (s.x rs1)) .word (f old (s.x rs2))).writeback rd old

/-- The effect of LR.W (R201). -/
def State.loadReserved (s : State) (rd rs1 : Reg) : State :=
  match s.atomicReadFault (s.x rs1) with
  | some r => s.raise r
  | none => (s.reserve (s.x rs1)).writeback rd (s.busLoad (s.offset (s.x rs1)) .word)

/-- SC.W succeeds exactly when the reservation is valid and its address is the one given (R202). -/
def State.reservationHeld (s : State) (addr : Word) : Bool := s.resvValid && decide (s.resvAddr = addr)

/-- The effect of SC.W (R202). -/
def State.storeConditional (s : State) (rd rs1 rs2 : Reg) : State :=
  match s.atomicWriteFault (s.x rs1) with
  | some r => s.raise r
  | none =>
    if s.reservationHeld (s.x rs1) then
      (s.busStore (s.offset (s.x rs1)) .word (s.x rs2)).clearReservation.writeback rd 0
    else s.clearReservation.writeback rd 1

/-- The new word of AMOMIN.W (R208). -/
def minSigned (old v : Word) : Word := if old.toInt ≤ v.toInt then old else v

/-- The new word of AMOMAX.W (R209). -/
def maxSigned (old v : Word) : Word := if old.toInt ≥ v.toInt then old else v

/-- The new word of AMOMINU.W (R210). -/
def minUnsigned (old v : Word) : Word := if old.toNat ≤ v.toNat then old else v

/-- The new word of AMOMAXU.W (R211). -/
def maxUnsigned (old v : Word) : Word := if old.toNat ≥ v.toNat then old else v

/-- LR.W (R201). -/
def execLrW (_aq _rl : Bool) (rd rs1 : Reg) (s : State) : Host.Outcome State Fault Refusal :=
  .next (s.loadReserved rd rs1)

/-- SC.W (R202). -/
def execScW (_aq _rl : Bool) (rd rs1 rs2 : Reg) (s : State) : Host.Outcome State Fault Refusal :=
  .next (s.storeConditional rd rs1 rs2)

/-- AMOSWAP.W (R203). -/
def execAmoswapW (_aq _rl : Bool) (rd rs1 rs2 : Reg) (s : State) : Host.Outcome State Fault Refusal :=
  .next (s.amo rd rs1 rs2 (fun _ v => v))

/-- AMOADD.W (R204). -/
def execAmoaddW (_aq _rl : Bool) (rd rs1 rs2 : Reg) (s : State) : Host.Outcome State Fault Refusal :=
  .next (s.amo rd rs1 rs2 (fun old v => old + v))

/-- AMOXOR.W (R205). -/
def execAmoxorW (_aq _rl : Bool) (rd rs1 rs2 : Reg) (s : State) : Host.Outcome State Fault Refusal :=
  .next (s.amo rd rs1 rs2 (fun old v => old ^^^ v))

/-- AMOAND.W (R206). -/
def execAmoandW (_aq _rl : Bool) (rd rs1 rs2 : Reg) (s : State) : Host.Outcome State Fault Refusal :=
  .next (s.amo rd rs1 rs2 (fun old v => old &&& v))

/-- AMOOR.W (R207). -/
def execAmoorW (_aq _rl : Bool) (rd rs1 rs2 : Reg) (s : State) : Host.Outcome State Fault Refusal :=
  .next (s.amo rd rs1 rs2 (fun old v => old ||| v))

/-- AMOMIN.W (R208). -/
def execAmominW (_aq _rl : Bool) (rd rs1 rs2 : Reg) (s : State) : Host.Outcome State Fault Refusal :=
  .next (s.amo rd rs1 rs2 minSigned)

/-- AMOMAX.W (R209). -/
def execAmomaxW (_aq _rl : Bool) (rd rs1 rs2 : Reg) (s : State) : Host.Outcome State Fault Refusal :=
  .next (s.amo rd rs1 rs2 maxSigned)

/-- AMOMINU.W (R210). -/
def execAmominuW (_aq _rl : Bool) (rd rs1 rs2 : Reg) (s : State) : Host.Outcome State Fault Refusal :=
  .next (s.amo rd rs1 rs2 minUnsigned)

/-- AMOMAXU.W (R211). -/
def execAmomaxuW (_aq _rl : Bool) (rd rs1 rs2 : Reg) (s : State) : Host.Outcome State Fault Refusal :=
  .next (s.amo rd rs1 rs2 maxUnsigned)

end Sys2Proof.Machine
end

