-- ==== Sys2Proof/Machine/System.lean ====
section
/-! DEFINITION. The fences and the system instructions (`46_system_csr.md`). No CSR instruction raises an exception (R233). -/

namespace Sys2Proof.Machine

/-- FENCE (R220): a no-op, whatever its fields. -/
def execFence (_fm _pred _succ : BitVec 4) (_rs1 _rd : Reg) (s : State) : Host.Outcome State Fault Refusal :=
  .next s.retire

/-- FENCE.I (R221): a no-op, whatever its fields. -/
def execFenceI (_imm : BitVec 12) (_rs1 _rd : Reg) (s : State) : Host.Outcome State Fault Refusal :=
  .next s.retire

/-- ECALL (R222): `raise EnvCall`, cause 8 + `priv`, mtval 0. -/
def execEcall (s : State) : Host.Outcome State Fault Refusal :=
  .next (s.raise ⟨.envCall s.priv, 0⟩)

/-- EBREAK (R223): `raise Breakpoint`, mtval the address of the EBREAK. -/
def execEbreak (s : State) : Host.Outcome State Fault Refusal :=
  .next (s.raise ⟨.breakpoint, s.pc⟩)

/-- MRET (R224): `TrapReturn()`, in any privilege mode. -/
def execMret (s : State) : Host.Outcome State Fault Refusal :=
  .next (s.trapReturn.commit .normal s.mepc)

/-- WFI (R225): a no-op. -/
def execWfi (s : State) : Host.Outcome State Fault Refusal :=
  .next s.retire

/-- CSRRW (R226). -/
def execCsrrw (rd : Reg) (csr : CsrNum) (rs1 : Reg) (s : State) : Host.Outcome State Fault Refusal :=
  .next (s.csrAccess rd csr (decide (rd ≠ 0)) true (fun _ => s.x rs1))

/-- CSRRS (R227). -/
def execCsrrs (rd : Reg) (csr : CsrNum) (rs1 : Reg) (s : State) : Host.Outcome State Fault Refusal :=
  .next (s.csrAccess rd csr true (decide (rs1 ≠ 0)) (fun old => old ||| s.x rs1))

/-- CSRRC (R228). -/
def execCsrrc (rd : Reg) (csr : CsrNum) (rs1 : Reg) (s : State) : Host.Outcome State Fault Refusal :=
  .next (s.csrAccess rd csr true (decide (rs1 ≠ 0)) (fun old => old &&& ~~~s.x rs1))

/-- CSRRWI (R229). -/
def execCsrrwi (rd : Reg) (csr : CsrNum) (uimm : BitVec 5) (s : State) : Host.Outcome State Fault Refusal :=
  .next (s.csrAccess rd csr (decide (rd ≠ 0)) true (fun _ => immUimm uimm))

/-- CSRRSI (R230). -/
def execCsrrsi (rd : Reg) (csr : CsrNum) (uimm : BitVec 5) (s : State) : Host.Outcome State Fault Refusal :=
  .next (s.csrAccess rd csr true (decide (uimm ≠ 0)) (fun old => old ||| immUimm uimm))

/-- CSRRCI (R231). -/
def execCsrrci (rd : Reg) (csr : CsrNum) (uimm : BitVec 5) (s : State) : Host.Outcome State Fault Refusal :=
  .next (s.csrAccess rd csr true (decide (uimm ≠ 0)) (fun old => old &&& ~~~immUimm uimm))

end Sys2Proof.Machine
end

