-- ==== Sys2Proof/Machine/Step.lean ====
section
/-! DEFINITION. One step of the machine (`40_step_loop.md` R90): the host's turn, then `Step()`. -/

namespace Sys2Proof.Machine

/-- `Step()` (R90): the interrupt check, fetch and decode, then the instruction. No step exists while `halted` is 1 (R98). -/
def hartStep (s : State) : Host.Outcome State Fault Refusal :=
  if s.halted then .refused .runEnded
  else if s.timerInterruptReady then .next s.takeTimerInterrupt
  else
    match s.fetchInstr with
    | .ok i => exec i s
    | .error r => .next (s.raise r)

/-- What the host does before this step, then `Step()`. -/
def step (s : State) : Host.Outcome State Fault Refusal := hartStep s.hostTurn

/-- The state with the instruction whose bits are `w` where the next step fetches it. The image load of R296 places a program the same
way, from outside the machine. -/
def State.withFetchWord (s : State) (nbits w : Nat) : State := s.placeWord (tableWord nbits w)

end Sys2Proof.Machine
end

