-- ==== Sys2Proof/Assembly.lean ====
section
/-! DEFINITION. The assembler's side of `30_encoding.md` section 6: register names (`10_state.md` R12), the operand syntax of each form
(R84) and the expansions of the pseudo-instructions (R85). The hardware decodes none of this. -/

namespace Sys2Proof

/-- The standard ABI names of x0 to x31 (R12). -/
def abiNames : List String := [
  "zero", "ra", "sp", "gp", "tp", "t0", "t1", "t2", "s0", "s1", "a0", "a1", "a2", "a3", "a4", "a5",
  "a6", "a7", "s2", "s3", "s4", "s5", "s6", "s7", "s8", "s9", "s10", "s11", "t3", "t4", "t5", "t6"]

/-- The ABI name of a register (R12). -/
def abiName (r : Reg) : String := abiNames.getD r.val ""

/-- The register an assembler name stands for: `x0` to `x31`, an ABI name, or `fp` for x8 (R12, R84). -/
def regNamed (name : String) : Option Reg :=
  (List.finRange 32).find? fun r => name == "x" ++ toString r.val || name == abiName r || (name == "fp" && r == 8)

/-- The CSR names the assembler knows (R84); the numbers are those of `10_state.md` R29. -/
def csrNames : List (CsrNum × String) := [
  (0x300, "mstatus"), (0x304, "mie"), (0x305, "mtvec"), (0x340, "mscratch"), (0x341, "mepc"), (0x342, "mcause"),
  (0x343, "mtval"), (0x344, "mip"), (0xC00, "cycle"), (0xC01, "time"), (0xC80, "cycleh"), (0xC81, "timeh")]

/-- A CSR operand: its name, or its number (R84). -/
def csrText (n : CsrNum) : String := (csrNames.lookup n).getD (toString n.toNat)

/-- A signed immediate in decimal (R84). -/
def immText {n : Nat} (imm : BitVec n) : String := toString imm.toInt

/-- The label of a jump or branch: the address of its target in decimal, since the offset is `label - pc` (R84). -/
def labelText {n : Nat} (pc : Word) (imm : BitVec n) : String := toString (pc + imm.signExtend 32).toNat

/-- A set of `i`, `o`, `r`, `w` of FENCE (R84). DESIGN CHOICE (assumption 19), safe for the machine: R84 gives no text for the empty set;
here it is the empty string. -/
def fenceSet (v : BitVec 4) : String :=
  (if v.getLsbD 3 then "i" else "") ++ (if v.getLsbD 2 then "o" else "") ++ (if v.getLsbD 1 then "r" else "") ++
    (if v.getLsbD 0 then "w" else "")

/-- FENCE: `fence.tso` for `0x8330000F` (`96_test_vectors_2.md`), else `fence pred, succ` (R84). DESIGN CHOICE (assumption 19), safe for
the machine: R84 gives no text for any other nonzero `fm`, `rs1` or `rd`; here they are not written. -/
def fenceText (fm pred succ : BitVec 4) (rs1 rd : Reg) : String :=
  if encode (.fence fm pred succ rs1 rd) = 0x8330000F then "fence.tso" else "fence " ++ fenceSet pred ++ "," ++ fenceSet succ

/-- The `.aq`, `.rl`, `.aqrl` suffix of an atomic instruction (R84). -/
def orderSuffix : Bool → Bool → String
  | false, false => ""
  | true, false => ".aq"
  | false, true => ".rl"
  | true, true => ".aqrl"

/-- `op rd, rs1, rs2` (R84). -/
def asmR (op : String) (rd rs1 rs2 : Reg) : String := op ++ " " ++ abiName rd ++ "," ++ abiName rs1 ++ "," ++ abiName rs2

/-- `op rd, rs1, imm` (R84). -/
def asmI (op : String) (rd rs1 : Reg) (imm : String) : String := op ++ " " ++ abiName rd ++ "," ++ abiName rs1 ++ "," ++ imm

/-- `op r, imm(rs1)`: loads, stores and JALR (R84). -/
def asmMem (op : String) (r rs1 : Reg) (imm : BitVec 12) : String :=
  op ++ " " ++ abiName r ++ "," ++ immText imm ++ "(" ++ abiName rs1 ++ ")"

/-- `op rs1, rs2, label` (R84). -/
def asmB (op : String) (pc : Word) (rs1 rs2 : Reg) (imm : BitVec 13) : String :=
  op ++ " " ++ abiName rs1 ++ "," ++ abiName rs2 ++ "," ++ labelText pc imm

/-- `op rd, imm20` (R84). -/
def asmU (op : String) (rd : Reg) (imm : BitVec 20) : String := op ++ " " ++ abiName rd ++ "," ++ toString imm.toNat

/-- `op rd, rs2, (rs1)` (R84). -/
def asmA (op : String) (aq rl : Bool) (rd rs1 rs2 : Reg) : String :=
  op ++ orderSuffix aq rl ++ " " ++ abiName rd ++ "," ++ abiName rs2 ++ ",(" ++ abiName rs1 ++ ")"

/-- `op rd, csr, source` (R84). -/
def asmCsr (op : String) (rd : Reg) (csr : CsrNum) (source : String) : String :=
  op ++ " " ++ abiName rd ++ "," ++ csrText csr ++ "," ++ source

/-- The assembler text of the instruction at address `pc` (R84). DESIGN CHOICE (assumption 19), safe for the machine: R84 gives no text
for a FENCE.I with a nonzero `imm`, `rs1` or `rd`; here it is `fence.i` too. -/
def Instr.toAsm (pc : Word) : Instr → String
  | .lui rd imm => asmU "lui" rd imm
  | .auipc rd imm => asmU "auipc" rd imm
  | .addi rd rs1 imm => asmI "addi" rd rs1 (immText imm)
  | .slti rd rs1 imm => asmI "slti" rd rs1 (immText imm)
  | .sltiu rd rs1 imm => asmI "sltiu" rd rs1 (immText imm)
  | .xori rd rs1 imm => asmI "xori" rd rs1 (immText imm)
  | .ori rd rs1 imm => asmI "ori" rd rs1 (immText imm)
  | .andi rd rs1 imm => asmI "andi" rd rs1 (immText imm)
  | .slli rd rs1 shamt => asmI "slli" rd rs1 (toString shamt.toNat)
  | .srli rd rs1 shamt => asmI "srli" rd rs1 (toString shamt.toNat)
  | .srai rd rs1 shamt => asmI "srai" rd rs1 (toString shamt.toNat)
  | .add rd rs1 rs2 => asmR "add" rd rs1 rs2
  | .sub rd rs1 rs2 => asmR "sub" rd rs1 rs2
  | .sll rd rs1 rs2 => asmR "sll" rd rs1 rs2
  | .slt rd rs1 rs2 => asmR "slt" rd rs1 rs2
  | .sltu rd rs1 rs2 => asmR "sltu" rd rs1 rs2
  | .xor rd rs1 rs2 => asmR "xor" rd rs1 rs2
  | .srl rd rs1 rs2 => asmR "srl" rd rs1 rs2
  | .sra rd rs1 rs2 => asmR "sra" rd rs1 rs2
  | .or rd rs1 rs2 => asmR "or" rd rs1 rs2
  | .and rd rs1 rs2 => asmR "and" rd rs1 rs2
  | .jal rd imm => "jal " ++ abiName rd ++ "," ++ labelText pc imm
  | .jalr rd rs1 imm => asmMem "jalr" rd rs1 imm
  | .beq rs1 rs2 imm => asmB "beq" pc rs1 rs2 imm
  | .bne rs1 rs2 imm => asmB "bne" pc rs1 rs2 imm
  | .blt rs1 rs2 imm => asmB "blt" pc rs1 rs2 imm
  | .bge rs1 rs2 imm => asmB "bge" pc rs1 rs2 imm
  | .bltu rs1 rs2 imm => asmB "bltu" pc rs1 rs2 imm
  | .bgeu rs1 rs2 imm => asmB "bgeu" pc rs1 rs2 imm
  | .lb rd rs1 imm => asmMem "lb" rd rs1 imm
  | .lh rd rs1 imm => asmMem "lh" rd rs1 imm
  | .lw rd rs1 imm => asmMem "lw" rd rs1 imm
  | .lbu rd rs1 imm => asmMem "lbu" rd rs1 imm
  | .lhu rd rs1 imm => asmMem "lhu" rd rs1 imm
  | .sb rs1 rs2 imm => asmMem "sb" rs2 rs1 imm
  | .sh rs1 rs2 imm => asmMem "sh" rs2 rs1 imm
  | .sw rs1 rs2 imm => asmMem "sw" rs2 rs1 imm
  | .mul rd rs1 rs2 => asmR "mul" rd rs1 rs2
  | .mulh rd rs1 rs2 => asmR "mulh" rd rs1 rs2
  | .mulhsu rd rs1 rs2 => asmR "mulhsu" rd rs1 rs2
  | .mulhu rd rs1 rs2 => asmR "mulhu" rd rs1 rs2
  | .div rd rs1 rs2 => asmR "div" rd rs1 rs2
  | .divu rd rs1 rs2 => asmR "divu" rd rs1 rs2
  | .rem rd rs1 rs2 => asmR "rem" rd rs1 rs2
  | .remu rd rs1 rs2 => asmR "remu" rd rs1 rs2
  | .lrW aq rl rd rs1 => "lr.w" ++ orderSuffix aq rl ++ " " ++ abiName rd ++ ",(" ++ abiName rs1 ++ ")"
  | .scW aq rl rd rs1 rs2 => asmA "sc.w" aq rl rd rs1 rs2
  | .amoswapW aq rl rd rs1 rs2 => asmA "amoswap.w" aq rl rd rs1 rs2
  | .amoaddW aq rl rd rs1 rs2 => asmA "amoadd.w" aq rl rd rs1 rs2
  | .amoxorW aq rl rd rs1 rs2 => asmA "amoxor.w" aq rl rd rs1 rs2
  | .amoandW aq rl rd rs1 rs2 => asmA "amoand.w" aq rl rd rs1 rs2
  | .amoorW aq rl rd rs1 rs2 => asmA "amoor.w" aq rl rd rs1 rs2
  | .amominW aq rl rd rs1 rs2 => asmA "amomin.w" aq rl rd rs1 rs2
  | .amomaxW aq rl rd rs1 rs2 => asmA "amomax.w" aq rl rd rs1 rs2
  | .amominuW aq rl rd rs1 rs2 => asmA "amominu.w" aq rl rd rs1 rs2
  | .amomaxuW aq rl rd rs1 rs2 => asmA "amomaxu.w" aq rl rd rs1 rs2
  | .fence fm pred succ rs1 rd => fenceText fm pred succ rs1 rd
  | .fenceI _ _ _ => "fence.i"
  | .ecall => "ecall"
  | .ebreak => "ebreak"
  | .mret => "mret"
  | .wfi => "wfi"
  | .csrrw rd csr rs1 => asmCsr "csrrw" rd csr (abiName rs1)
  | .csrrs rd csr rs1 => asmCsr "csrrs" rd csr (abiName rs1)
  | .csrrc rd csr rs1 => asmCsr "csrrc" rd csr (abiName rs1)
  | .csrrwi rd csr uimm => asmCsr "csrrwi" rd csr (toString uimm.toNat)
  | .csrrsi rd csr uimm => asmCsr "csrrsi" rd csr (toString uimm.toNat)
  | .csrrci rd csr uimm => asmCsr "csrrci" rd csr (toString uimm.toNat)

/-- The pseudo-instructions of R85. A label or symbol is a guest address. -/
inductive Pseudo where
  | nop
  | li (rd : Reg) (imm : Word)
  | la (rd : Reg) (symbol : Word)
  | mv (rd rs : Reg)
  | not (rd rs : Reg)
  | neg (rd rs : Reg)
  | seqz (rd rs : Reg)
  | snez (rd rs : Reg)
  | sltz (rd rs : Reg)
  | sgtz (rd rs : Reg)
  | beqz (rs : Reg) (label : Word)
  | bnez (rs : Reg) (label : Word)
  | blez (rs : Reg) (label : Word)
  | bgez (rs : Reg) (label : Word)
  | bltz (rs : Reg) (label : Word)
  | bgtz (rs : Reg) (label : Word)
  | bgt (rs rt : Reg) (label : Word)
  | ble (rs rt : Reg) (label : Word)
  | bgtu (rs rt : Reg) (label : Word)
  | bleu (rs rt : Reg) (label : Word)
  | j (label : Word)
  | jal (label : Word)
  | jr (rs : Reg)
  | jalr (rs : Reg)
  | ret
  | call (label : Word)
  | tail (label : Word)
  | csrr (rd : Reg) (csr : CsrNum)
  | csrw (csr : CsrNum) (rs : Reg)
  | csrs (csr : CsrNum) (rs : Reg)
  | csrc (csr : CsrNum) (rs : Reg)
  | csrwi (csr : CsrNum) (uimm : BitVec 5)
  | csrsi (csr : CsrNum) (uimm : BitVec 5)
  | csrci (csr : CsrNum) (uimm : BitVec 5)
  | rdcycle (rd : Reg)
  | rdcycleh (rd : Reg)
  | rdtime (rd : Reg)
  | rdtimeh (rd : Reg)
  | rdinstret (rd : Reg)
  | fence
deriving DecidableEq, Repr

/-- `hi20(d) = (d + 0x800) >> 12` (R85). -/
def hi20 (d : Word) : BitVec 20 := (d + 0x800).extractLsb' 12 20

/-- `lo12(d)`, the 12 bits that are then sign-extended (R85). -/
def lo12 (d : Word) : BitVec 12 := d.extractLsb' 0 12

/-- The value is one ADDI can load: -2048 to 2047 (R85). -/
def fitsAddi (imm : Word) : Bool := decide (-2048 ≤ imm.toInt) && decide (imm.toInt ≤ 2047)

/-- The real instructions a pseudo-instruction at address `pc` stands for (R85). DESIGN CHOICE (assumption 17), safe for the machine:
R85 does not say what a jump or branch expands to when `label - pc` is odd or outside the range of `imm_B` or `imm_J`; here the offset is
its low 13 or 21 bits. -/
def Pseudo.expand (pc : Word) : Pseudo → List Instr
  | .nop => [.addi 0 0 0]
  | .li rd imm =>
    if fitsAddi imm then [.addi rd 0 (lo12 imm)]
    else if lo12 imm = 0 then [.lui rd (hi20 imm)]
    else [.lui rd (hi20 imm), .addi rd rd (lo12 imm)]
  | .la rd symbol => [.auipc rd (hi20 (symbol - pc)), .addi rd rd (lo12 (symbol - pc))]
  | .mv rd rs => [.addi rd rs 0]
  | .not rd rs => [.xori rd rs (-1)]
  | .neg rd rs => [.sub rd 0 rs]
  | .seqz rd rs => [.sltiu rd rs 1]
  | .snez rd rs => [.sltu rd 0 rs]
  | .sltz rd rs => [.slt rd rs 0]
  | .sgtz rd rs => [.slt rd 0 rs]
  | .beqz rs label => [.beq rs 0 ((label - pc).setWidth 13)]
  | .bnez rs label => [.bne rs 0 ((label - pc).setWidth 13)]
  | .blez rs label => [.bge 0 rs ((label - pc).setWidth 13)]
  | .bgez rs label => [.bge rs 0 ((label - pc).setWidth 13)]
  | .bltz rs label => [.blt rs 0 ((label - pc).setWidth 13)]
  | .bgtz rs label => [.blt 0 rs ((label - pc).setWidth 13)]
  | .bgt rs rt label => [.blt rt rs ((label - pc).setWidth 13)]
  | .ble rs rt label => [.bge rt rs ((label - pc).setWidth 13)]
  | .bgtu rs rt label => [.bltu rt rs ((label - pc).setWidth 13)]
  | .bleu rs rt label => [.bgeu rt rs ((label - pc).setWidth 13)]
  | .j label => [.jal 0 ((label - pc).setWidth 21)]
  | .jal label => [.jal 1 ((label - pc).setWidth 21)]
  | .jr rs => [.jalr 0 rs 0]
  | .jalr rs => [.jalr 1 rs 0]
  | .ret => [.jalr 0 1 0]
  | .call label => [.auipc 1 (hi20 (label - pc)), .jalr 1 1 (lo12 (label - pc))]
  | .tail label => [.auipc 6 (hi20 (label - pc)), .jalr 0 6 (lo12 (label - pc))]
  | .csrr rd csr => [.csrrs rd csr 0]
  | .csrw csr rs => [.csrrw 0 csr rs]
  | .csrs csr rs => [.csrrs 0 csr rs]
  | .csrc csr rs => [.csrrc 0 csr rs]
  | .csrwi csr uimm => [.csrrwi 0 csr uimm]
  | .csrsi csr uimm => [.csrrsi 0 csr uimm]
  | .csrci csr uimm => [.csrrci 0 csr uimm]
  | .rdcycle rd => [.csrrs rd 0xC00 0]
  | .rdcycleh rd => [.csrrs rd 0xC80 0]
  | .rdtime rd => [.csrrs rd 0xC01 0]
  | .rdtimeh rd => [.csrrs rd 0xC81 0]
  | .rdinstret rd => [.csrrs rd 0xC02 0]
  | .fence => [.fence 0 0xF 0xF 0 0]

end Sys2Proof
end

