-- ==== Sys2Proof/Machine/Run.lean ====
section
/-! DEFINITION. Several steps: the scheduler's batch (`40_step_loop.md` R99), and a sequence of instructions executed one after another. -/

namespace Sys2Proof.Machine

/-- A batch (R99): `n` successive steps, stopping early at the first `PowerOff` or `ResetRequest`. -/
def batch : Nat → State → Host.Outcome State Fault Refusal
  | 0, s => .next s
  | n + 1, s =>
    match step s with
    | .next t => if t.result.endsRun then .next t else batch n t
    | .fault r => .fault r
    | .refused r => .refused r

/-- The instructions of a list, one after another, wherever they stand in memory. -/
def execAll : List Instr → State → Host.Outcome State Fault Refusal
  | [], s => .next s
  | i :: is, s =>
    match exec i s with
    | .next t => execAll is t
    | .fault r => .fault r
    | .refused r => .refused r

end Sys2Proof.Machine
end

