-- ==== Sys2Proof/Safety.lean ====
section
/-! DEFINITION. What counts as a safe run, in the terms the claims use: the invariant of the state, and the frames, which say what a
step leaves unchanged through the model's reads. -/

namespace Sys2Proof.Machine

/-! ### The invariant -/

/-- What every state of a run satisfies: the image is canonical and lies inside DRAM_SIZE (R32), the end-of-input latch is set only if
the stream closed (R53), and `halted` is set exactly by a result that ends the run (R37, R98). -/
structure State.Inv (s : State) : Prop where
  memCanonical : s.mem.wf = true
  memInRange : s.mem.below s.cfg.dramSize = true
  latchMeansClosed : s.eofLatch = true → s.inputClosed = true
  haltedByResult : s.halted = s.result.endsRun

/-- The step answers a next state. -/
def Progresses (s : State) : Prop := ∃ t, step s = .next t

/-! ### What two states have in common -/

/-- No general register differs. -/
def SameRegs (s t : State) : Prop := ∀ r, t.x r = s.x r

/-- `priv` and the fields of mstatus are unchanged. -/
structure SameStatus (s t : State) : Prop where
  priv : t.priv = s.priv
  mie : t.statusMIE = s.statusMIE
  mpie : t.statusMPIE = s.statusMPIE
  mpp : t.statusMPP = s.statusMPP

/-- The CSRs software owns and a trap does not write are unchanged. -/
structure SameSoftwareCsrs (s t : State) : Prop where
  mie : t.mie = s.mie
  mtvec : t.mtvec = s.mtvec
  mscratch : t.mscratch = s.mscratch

/-- The registers a trap saves into are unchanged. -/
structure SameTrapCsrs (s t : State) : Prop where
  mepc : t.mepc = s.mepc
  mcause : t.mcause = s.mcause
  mtval : t.mtval = s.mtval

/-- The reservation is unchanged. -/
structure SameReservation (s t : State) : Prop where
  valid : t.resvValid = s.resvValid
  addr : t.resvAddr = s.resvAddr

/-- Every byte of memory reads as before. -/
def SameMemory (s t : State) : Prop := ∀ off, t.mem.read off = s.mem.read off

/-- Every byte of memory outside the `n` bytes from `off` reads as before. -/
def SameMemoryOutside (off n : Nat) (s t : State) : Prop :=
  ∀ a, a < off ∨ off + n ≤ a → t.mem.read a = s.mem.read a

/-- The keyboard is unchanged. -/
structure SameKeyboard (s t : State) : Prop where
  kbd : t.kbd = s.kbd
  eofLatch : t.eofLatch = s.eofLatch
  inputClosed : t.inputClosed = s.inputClosed

/-- The configuration, the host's schedule and whether a step was taken are unchanged. -/
structure SameRun (s t : State) : Prop where
  cfg : t.cfg = s.cfg
  hostInputs : t.hostInputs = s.hostInputs
  stepTaken : t.stepTaken = s.stepTaken

/-- Every special register, the timer compare register, the reservation, the device and the run are unchanged. -/
structure SameSystem (s t : State) : Prop where
  status : SameStatus s t
  software : SameSoftwareCsrs s t
  trap : SameTrapCsrs s t
  timermatch : t.timermatch = s.timermatch
  reservation : SameReservation s t
  keyboard : SameKeyboard s t
  console : t.console = s.console
  run : SameRun s t

/-! ### How a step ends -/

/-- The instruction retired with `Normal`: pc, `cycle + 1`, the result, `halted` (R90, R95, R96). -/
structure Retired (next : Word) (s t : State) : Prop where
  pc : t.pc = next
  cycle : t.cycle = s.cycle + 1
  result : t.result = .normal
  halted : t.halted = s.halted

/-- The instruction retired and its one effect is `x[rd] <- v`, discarded for x0 (R11). -/
structure WritesOneRegister (rd : Reg) (v next : Word) (s t : State) : Prop where
  written : t.x rd = if rd = 0 then 0 else v
  others : ∀ r, r ≠ rd → t.x r = s.x r
  retired : Retired next s t
  memory : SameMemory s t
  system : SameSystem s t

/-- The instruction retired and changed nothing but pc and cycle. -/
structure OnlyRetires (next : Word) (s t : State) : Prop where
  regs : SameRegs s t
  retired : Retired next s t
  memory : SameMemory s t
  system : SameSystem s t

/-- Where a trap goes: mtvec, or the fallback if mtvec is zero (R258, R259). -/
def State.trapTarget (s : State) : Word := if s.mtvec = 0 then s.cfg.mtvecFallback else s.mtvec

/-- `TrapEntry(cause, epc, tval)` was performed and nothing else of the architectural state changed, cycle and result apart (R258). -/
structure TookTrap (cause epc tval : Word) (s t : State) : Prop where
  mepc : t.mepc = epc
  mcause : t.mcause = cause
  mtval : t.mtval = tval
  mpie : t.statusMPIE = s.statusMIE
  mie : t.statusMIE = false
  mpp : t.statusMPP = s.priv
  priv : t.priv = 3
  pc : t.pc = s.trapTarget
  regs : SameRegs s t
  memory : SameMemory s t
  software : SameSoftwareCsrs s t
  timermatch : t.timermatch = s.timermatch
  reservation : SameReservation s t
  keyboard : SameKeyboard s t
  console : t.console = s.console
  run : SameRun s t
  halted : t.halted = s.halted

/-- The instruction raised `e` with mtval `info`: the trap with the address of the instruction, `cycle + 1`, `Trapped(e)` (R256, R257). -/
structure RaisedException (e : Exception) (info : Word) (s t : State) : Prop where
  trap : TookTrap (causeOf e) s.pc info s t
  cycle : t.cycle = s.cycle + 1
  result : t.result = .trapped e

/-- The instruction completes in `s` and the state after it satisfies `P`. -/
def Completes (i : Instr) (s : State) (P : State → Prop) : Prop := ∃ t, exec i s = .next t ∧ P t

/-- The word is the instruction `i`, which completes in `s` with a state that satisfies `P`. -/
def WordMeans (w : Word) (i : Instr) (s : State) (P : State → Prop) : Prop := decodeWord w = .ok i ∧ Completes i s P

/-- The loads (R161 to R165). -/
def loadMnemonics : List String := ["LB", "LH", "LW", "LBU", "LHU"]

/-- The stores (R166 to R168). -/
def storeMnemonics : List String := ["SB", "SH", "SW"]

/-- The AMOs (R203 to R211). -/
def amoMnemonics : List String :=
  ["AMOSWAP.W", "AMOADD.W", "AMOXOR.W", "AMOAND.W", "AMOOR.W", "AMOMIN.W", "AMOMAX.W", "AMOMINU.W", "AMOMAXU.W"]

/-- The two states differ at most in `priv` and `MPP`. -/
def EqualButMode (t u : State) : Prop := u = { t with priv := u.priv, statusMPP := u.statusMPP }

/-- The sum of the host's `AdvanceTime` calls (R272). -/
def advancedTime : List HostInput → Nat
  | [] => 0
  | .advanceTime d :: is => d + advancedTime is
  | .keyTyped _ :: is => advancedTime is
  | .closeInput :: is => advancedTime is

/-- The bytes the host appends to `kbd` (R31). -/
def typedKeys : List HostInput → List Byte
  | [] => []
  | .advanceTime _ :: is => typedKeys is
  | .keyTyped b :: is => b :: typedKeys is
  | .closeInput :: is => typedKeys is

end Sys2Proof.Machine
end

