-- ==== Sys2Proof/Certificates/Slice0/Obligations.lean ====
section
/-! DEFINITION. The statements for the provers. -/

open Sys2Proof Sys2Proof.Machine

/-! ### Encoding -/

/-- Worked words of the spec decode to the instructions they stand for (`30_encoding.md` section 2 and the examples of files 41 to 46). -/
def Obligations.WorkedWordsDecode : Prop :=
  decodeWord 0x123452B7 = .ok (.lui 5 0x12345) ∧
  decodeWord 0xFFF10093 = .ok (.addi 1 2 (-1)) ∧
  decodeWord 0x41F15093 = .ok (.srai 1 2 31) ∧
  decodeWord 0x403100B3 = .ok (.sub 1 2 3) ∧
  decodeWord 0xFF9FF06F = .ok (.jal 0 (-8)) ∧
  decodeWord 0xFE209EE3 = .ok (.bne 1 2 (-4)) ∧
  decodeWord 0x00311083 = .ok (.lh 1 2 3) ∧
  decodeWord 0xFE112E23 = .ok (.sw 2 1 (-4)) ∧
  decodeWord 0x0220A1B3 = .ok (.mulhsu 3 1 2) ∧
  decodeWord 0x1600A1AF = .ok (.lrW true true 3 1) ∧
  decodeWord 0x1010A1AF = .error .unknownMinor ∧
  decodeWord 0x8330000F = .ok (.fence 8 3 3 0 0) ∧
  decodeWord 0x340871F3 = .ok (.csrrci 3 0x340 16) ∧
  decodeWord 0x30200073 = .ok .mret

/-- Decoding the encoding of a well-formed instruction gives it back, every operand at every value. -/
def Obligations.DecodeOfEncode : Prop := ∀ i : Instr, i.wellFormed = true → decodeWord (encode i) = .ok i

/-- A word that decodes is the encoding of the instruction it decodes to, and that instruction is well-formed. -/
def Obligations.EncodeOfDecode : Prop :=
  ∀ (w : Word) (i : Instr), decodeWord w = .ok i → encode i = w ∧ i.wellFormed = true

/-- R80: `Decode` is the opcode table. A row matches a word exactly when the word decodes to an instruction of the row's mnemonic; no
word matches two rows; a word no row matches decodes to no instruction. -/
def Obligations.DecodeIsTheOpcodeTable : Prop :=
  opcodeTable.length = 68 ∧
  (∀ (w : Word) (r : OpRow), r ∈ opcodeTable →
    (r.matches w = true ↔ ∃ i, decodeWord w = .ok i ∧ i.mnemonic = r.mnemonic)) ∧
  (∀ (w : Word) (r r' : OpRow), r ∈ opcodeTable → r' ∈ opcodeTable → r.matches w = true → r'.matches w = true → r = r') ∧
  (∀ w : Word, (∀ r ∈ opcodeTable, r.matches w = false) ↔ ∃ e, decodeWord w = .error e)

/-- The bytes of an encoded instruction, followed by anything, decode to it and leave the rest. -/
def Obligations.DecodeOfEncodedBytes : Prop :=
  ∀ (i : Instr) (rest : List Byte), i.wellFormed = true → decode (encodeBytes i ++ rest) = .ok (i, rest)

/-! ### The step -/

/-- The bytes at the pc, an instruction of them, and nothing in the way: the step is `exec` of it in the state after the host's turn. -/
def Obligations.StepRunsTheDecodedInstruction : Prop :=
  ∀ (s : State) (b0 b1 b2 b3 : Byte) (i : Instr),
    let u := s.hostTurn
    u.halted = false → u.timerInterruptReady = false →
    u.offset u.pc + 4 ≤ u.cfg.dramSize → u.pc.extractLsb' 0 2 = 0 →
    u.mem.read (u.offset u.pc) = b0 → u.mem.read (u.offset u.pc + 1) = b1 →
    u.mem.read (u.offset u.pc + 2) = b2 → u.mem.read (u.offset u.pc + 3) = b3 →
    decodeWord (b3 ++ b2 ++ b1 ++ b0) = .ok i →
    step s = exec i u

/-- R98, R301: a step answers a next state exactly when `halted` is 0, and while it is 1 no step exists. -/
def Obligations.StepIsTotalUntilTheRunEnds : Prop :=
  ∀ s : State, (s.halted = false → Progresses s) ∧ (s.halted = true → step s = .refused .runEnded)

/-- R265, R266, R91: the timer interrupt is ready exactly when `timermatch` is set and reached, bit 7 of mie is set, and the mode is not
3 or MIE is set; the step then takes it, before the fetch: cause `0x80000007`, mepc the pc, mtval 0, `Normal`, `cycle` unchanged. -/
def Obligations.TimerInterruptIsTakenBeforeTheFetch : Prop :=
  ∀ s : State,
    let u := s.hostTurn
    let ready := u.timermatch.toNat ≠ 0 ∧ u.timermatch.toNat ≤ u.cycle.toNat ∧ u.mie.getLsbD 7 = true ∧
      (u.priv ≠ 3 ∨ u.statusMIE = true)
    (ready ↔ u.timerInterruptReady = true) ∧
    (u.halted = false → ready →
      ∃ t, step s = .next t ∧ TookTrap 0x80000007 u.pc 0 u t ∧ t.cycle = u.cycle ∧ t.result = .normal)

/-- R44, R92, R253: a fetch outside RAM raises cause 1 whatever the alignment, a misaligned fetch inside RAM raises cause 0; mepc and
mtval are the bad pc. -/
def Obligations.BadFetchTraps : Prop :=
  ∀ s : State,
    let u := s.hostTurn
    u.halted = false → u.timerInterruptReady = false →
    (u.offset u.pc ≥ u.cfg.dramSize → ∃ t, step s = .next t ∧ RaisedException .instrAccessFault u.pc u t) ∧
    (u.offset u.pc < u.cfg.dramSize → u.pc.extractLsb' 0 2 ≠ 0 →
      ∃ t, step s = .next t ∧ RaisedException .instrAddrMisaligned u.pc u t)

/-- R81: a fetched word that matches no row of the opcode table raises `IllegalInstruction`, cause 2, with the word in mtval. -/
def Obligations.IllegalWordTraps : Prop :=
  ∀ (s : State) (w : Word),
    let u := s.hostTurn
    u.halted = false → u.timerInterruptReady = false → u.fetchWord u.pc = .ok w →
    (∀ r ∈ opcodeTable, w &&& r.mask ≠ r.pattern) →
    ∃ t, step s = .next t ∧ RaisedException .illegalInstruction w u t ∧ t.mcause = 2

/-- R96: a step that passes the interrupt check adds exactly 1 to `cycle`, whether it retires or traps; one that takes the interrupt
adds nothing. -/
def Obligations.CycleCountsSteps : Prop :=
  ∀ s t : State, step s = .next t →
    t.cycle = s.hostTurn.cycle + (if s.hostTurn.timerInterruptReady then 0 else 1)

/-- R272, R99 and `93_implementation_defined.md` part 2: between two steps the host adds time modulo 2^64, appends keys and closes its
stream, and changes nothing else; before the first step of a run it adds no time (R295). That the schedule and the mark of the first
step stand in the state is the model's choice (assumptions 6 and 18). -/
def Obligations.HostTurnOnlyAdvancesTimeAndInput : Prop :=
  ∀ s : State,
    let acts := s.hostInputs.headD []
    let t := s.hostTurn
    t.cycle = s.cycle + (if s.stepTaken then BitVec.ofNat 64 (advancedTime acts) else 0) ∧ t.kbd = s.kbd ++ typedKeys acts ∧
    t.inputClosed = (s.inputClosed || decide (HostInput.closeInput ∈ acts)) ∧ t.hostInputs = s.hostInputs.tail ∧
    t.stepTaken = true ∧
    t = { s with
      cycle := t.cycle, kbd := t.kbd, inputClosed := t.inputClosed, hostInputs := t.hostInputs, stepTaken := t.stepTaken }

/-- R298, R64: a word stored over the next instruction is what the next fetch reads, without any fence. -/
def Obligations.FetchSeesTheStoreBeforeIt : Prop :=
  ∀ (s : State) (rs1 rs2 : Reg) (imm : BitVec 12),
    s.mem.wf = true → storePort s.cfg.toParams (s.storeAddr rs1 imm) = none →
    s.storeAddr rs1 imm = s.pc + 4 → (s.pc + 4).extractLsb' 0 2 = 0 → s.offset (s.pc + 4) + 4 ≤ s.cfg.dramSize →
    Completes (.sw rs1 rs2 imm) s fun t => t.pc = s.pc + 4 ∧ t.fetchWord t.pc = .ok (s.x rs2)

/-- R44, last paragraph: with RAM_BASE a multiple of 4, a fetch that raises nothing has its four bytes inside the image. The alignment of
RAM_BASE is a hypothesis because R5 does not ask for it (assumption 12). -/
def Obligations.FetchStaysInsideTheImage : Prop :=
  ∀ (s : State) (addr w : Word), s.cfg.ramBase.toNat % 4 = 0 → s.fetchWord addr = .ok w →
    s.offset addr + 4 ≤ s.cfg.dramSize ∧
    w = s.mem.read (s.offset addr + 3) ++ s.mem.read (s.offset addr + 2) ++ s.mem.read (s.offset addr + 1) ++
      s.mem.read (s.offset addr)

/-! ### General registers -/

/-- R11: x0 reads 0 whatever was written to it; any other register reads what was written to it last; a write changes no other. -/
def Obligations.RegisterZeroIsHardWired : Prop :=
  ∀ (s : State) (r q : Reg) (v : Word),
    s.x 0 = 0 ∧ (s.setX r v).x q = if q = 0 then 0 else if q = r then v else s.x q

/-! ### Integer computation -/

/-- R101, R102: LUI and AUIPC, with their encodings. -/
def Obligations.UpperImmediates : Prop :=
  ∀ (s : State) (rd : Reg) (imm : BitVec 20),
    WordMeans (uType imm rd 0b0110111) (.lui rd imm) s
      (WritesOneRegister rd (BitVec.ofNat 32 (imm.toNat * 4096)) (s.pc + 4) s) ∧
    WordMeans (uType imm rd 0b0010111) (.auipc rd imm) s
      (WritesOneRegister rd (s.pc + BitVec.ofNat 32 (imm.toNat * 4096)) (s.pc + 4) s)

/-- R103 to R108: ADDI, SLTI, SLTIU, XORI, ORI, ANDI, with their encodings; the immediate is sign-extended from 12 bits. -/
def Obligations.RegisterImmediateInstructions : Prop :=
  ∀ (s : State) (rd rs1 : Reg) (imm : BitVec 12),
    let a := s.x rs1
    let k : Word := BitVec.ofInt 32 imm.toInt
    WordMeans (iType imm rs1 0b000 rd 0b0010011) (.addi rd rs1 imm) s
      (WritesOneRegister rd (BitVec.ofInt 32 (a.toInt + imm.toInt)) (s.pc + 4) s) ∧
    WordMeans (iType imm rs1 0b010 rd 0b0010011) (.slti rd rs1 imm) s
      (WritesOneRegister rd (if a.toInt < imm.toInt then 1 else 0) (s.pc + 4) s) ∧
    WordMeans (iType imm rs1 0b011 rd 0b0010011) (.sltiu rd rs1 imm) s
      (WritesOneRegister rd (if a.toNat < k.toNat then 1 else 0) (s.pc + 4) s) ∧
    WordMeans (iType imm rs1 0b100 rd 0b0010011) (.xori rd rs1 imm) s
      (WritesOneRegister rd (a ^^^ k) (s.pc + 4) s) ∧
    WordMeans (iType imm rs1 0b110 rd 0b0010011) (.ori rd rs1 imm) s
      (WritesOneRegister rd (a ||| k) (s.pc + 4) s) ∧
    WordMeans (iType imm rs1 0b111 rd 0b0010011) (.andi rd rs1 imm) s
      (WritesOneRegister rd (a &&& k) (s.pc + 4) s)

/-- R109 to R111: SLLI, SRLI, SRAI, with their encodings and with the illegal values of `ir[31:25]`; the shifts as arithmetic. -/
def Obligations.ImmediateShifts : Prop :=
  (∀ (s : State) (rd rs1 : Reg) (shamt : BitVec 5),
    let a := s.x rs1
    WordMeans (shiftType 0b0000000 shamt rs1 0b001 rd 0b0010011) (.slli rd rs1 shamt) s
      (WritesOneRegister rd (BitVec.ofNat 32 (a.toNat * 2 ^ shamt.toNat)) (s.pc + 4) s) ∧
    WordMeans (shiftType 0b0000000 shamt rs1 0b101 rd 0b0010011) (.srli rd rs1 shamt) s
      (WritesOneRegister rd (BitVec.ofNat 32 (a.toNat / 2 ^ shamt.toNat)) (s.pc + 4) s) ∧
    WordMeans (shiftType 0b0100000 shamt rs1 0b101 rd 0b0010011) (.srai rd rs1 shamt) s
      (WritesOneRegister rd (BitVec.ofInt 32 (a.toInt / 2 ^ shamt.toNat)) (s.pc + 4) s)) ∧
  (∀ (funct7 : BitVec 7) (shamt : BitVec 5) (rd rs1 : Reg),
    (funct7 ≠ 0b0000000 → decodeWord (shiftType funct7 shamt rs1 0b001 rd 0b0010011) = .error .unknownMinor) ∧
    (funct7 ≠ 0b0000000 → funct7 ≠ 0b0100000 →
      decodeWord (shiftType funct7 shamt rs1 0b101 rd 0b0010011) = .error .unknownMinor))

/-- R112, R113, R115 to R117, R120, R121: ADD, SUB, SLT, SLTU, XOR, OR, AND, with their encodings. -/
def Obligations.RegisterRegisterInstructions : Prop :=
  ∀ (s : State) (rd rs1 rs2 : Reg),
    let a := s.x rs1
    let b := s.x rs2
    WordMeans (rType 0b0000000 rs2 rs1 0b000 rd 0b0110011) (.add rd rs1 rs2) s
      (WritesOneRegister rd (BitVec.ofNat 32 (a.toNat + b.toNat)) (s.pc + 4) s) ∧
    WordMeans (rType 0b0100000 rs2 rs1 0b000 rd 0b0110011) (.sub rd rs1 rs2) s
      (WritesOneRegister rd (BitVec.ofInt 32 (a.toInt - b.toInt)) (s.pc + 4) s) ∧
    WordMeans (rType 0b0000000 rs2 rs1 0b010 rd 0b0110011) (.slt rd rs1 rs2) s
      (WritesOneRegister rd (if a.toInt < b.toInt then 1 else 0) (s.pc + 4) s) ∧
    WordMeans (rType 0b0000000 rs2 rs1 0b011 rd 0b0110011) (.sltu rd rs1 rs2) s
      (WritesOneRegister rd (if a.toNat < b.toNat then 1 else 0) (s.pc + 4) s) ∧
    WordMeans (rType 0b0000000 rs2 rs1 0b100 rd 0b0110011) (.xor rd rs1 rs2) s
      (WritesOneRegister rd (a ^^^ b) (s.pc + 4) s) ∧
    WordMeans (rType 0b0000000 rs2 rs1 0b110 rd 0b0110011) (.or rd rs1 rs2) s
      (WritesOneRegister rd (a ||| b) (s.pc + 4) s) ∧
    WordMeans (rType 0b0000000 rs2 rs1 0b111 rd 0b0110011) (.and rd rs1 rs2) s
      (WritesOneRegister rd (a &&& b) (s.pc + 4) s)

/-- R114, R118, R119: SLL, SRL, SRA, with their encodings; only the low 5 bits of `x[rs2]` count, and the shifts as arithmetic. -/
def Obligations.RegisterShifts : Prop :=
  ∀ (s : State) (rd rs1 rs2 : Reg),
    let a := s.x rs1
    let n := (s.x rs2).toNat % 32
    WordMeans (rType 0b0000000 rs2 rs1 0b001 rd 0b0110011) (.sll rd rs1 rs2) s
      (WritesOneRegister rd (BitVec.ofNat 32 (a.toNat * 2 ^ n)) (s.pc + 4) s) ∧
    WordMeans (rType 0b0000000 rs2 rs1 0b101 rd 0b0110011) (.srl rd rs1 rs2) s
      (WritesOneRegister rd (BitVec.ofNat 32 (a.toNat / 2 ^ n)) (s.pc + 4) s) ∧
    WordMeans (rType 0b0100000 rs2 rs1 0b101 rd 0b0110011) (.sra rd rs1 rs2) s
      (WritesOneRegister rd (BitVec.ofInt 32 (a.toInt / 2 ^ n)) (s.pc + 4) s)

/-! ### Multiply and divide -/

/-- R181 to R184: MUL, MULH, MULHSU, MULHU, with their encodings: the low word of the product, and the high word of the exact product of
the operands read as each says. -/
def Obligations.Multiplication : Prop :=
  ∀ (s : State) (rd rs1 rs2 : Reg),
    let a := s.x rs1
    let b := s.x rs2
    WordMeans (rType 0b0000001 rs2 rs1 0b000 rd 0b0110011) (.mul rd rs1 rs2) s
      (WritesOneRegister rd (BitVec.ofNat 32 (a.toNat * b.toNat)) (s.pc + 4) s) ∧
    WordMeans (rType 0b0000001 rs2 rs1 0b001 rd 0b0110011) (.mulh rd rs1 rs2) s
      (WritesOneRegister rd ((BitVec.ofInt 64 (a.toInt * b.toInt)).extractLsb' 32 32) (s.pc + 4) s) ∧
    WordMeans (rType 0b0000001 rs2 rs1 0b010 rd 0b0110011) (.mulhsu rd rs1 rs2) s
      (WritesOneRegister rd ((BitVec.ofInt 64 (a.toInt * b.toNat)).extractLsb' 32 32) (s.pc + 4) s) ∧
    WordMeans (rType 0b0000001 rs2 rs1 0b011 rd 0b0110011) (.mulhu rd rs1 rs2) s
      (WritesOneRegister rd ((BitVec.ofNat 64 (a.toNat * b.toNat)).extractLsb' 32 32) (s.pc + 4) s)

/-- R185 to R188: DIV, DIVU, REM, REMU, with their encodings and the special cases of a zero divisor and of signed overflow. -/
def Obligations.DivisionAndRemainder : Prop :=
  ∀ (s : State) (rd rs1 rs2 : Reg),
    let a := s.x rs1
    let b := s.x rs2
    let overflow := a.toInt = -2 ^ 31 ∧ b.toInt = -1
    WordMeans (rType 0b0000001 rs2 rs1 0b100 rd 0b0110011) (.div rd rs1 rs2) s
      (WritesOneRegister rd
        (if b.toInt = 0 then 0xFFFFFFFF else if overflow then 0x80000000 else BitVec.ofInt 32 (a.toInt.tdiv b.toInt))
        (s.pc + 4) s) ∧
    WordMeans (rType 0b0000001 rs2 rs1 0b101 rd 0b0110011) (.divu rd rs1 rs2) s
      (WritesOneRegister rd (if b.toNat = 0 then 0xFFFFFFFF else BitVec.ofNat 32 (a.toNat / b.toNat)) (s.pc + 4) s) ∧
    WordMeans (rType 0b0000001 rs2 rs1 0b110 rd 0b0110011) (.rem rd rs1 rs2) s
      (WritesOneRegister rd
        (if b.toInt = 0 then a else if overflow then 0 else BitVec.ofInt 32 (a.toInt - b.toInt * a.toInt.tdiv b.toInt))
        (s.pc + 4) s) ∧
    WordMeans (rType 0b0000001 rs2 rs1 0b111 rd 0b0110011) (.remu rd rs1 rs2) s
      (WritesOneRegister rd (if b.toNat = 0 then a else BitVec.ofNat 32 (a.toNat % b.toNat)) (s.pc + 4) s)

/-- R180: what DIV and REM (and DIVU and REMU) write of the same operands satisfies `dividend = divisor * quotient + remainder` modulo
2^32 for every divisor other than zero, in the overflow case too; the remainder is smaller than the divisor in magnitude, the signed one
with the sign of the dividend. -/
def Obligations.DivisionIdentity : Prop :=
  ∀ (s : State) (rd rs1 rs2 : Reg), rd ≠ 0 → s.x rs2 ≠ 0 →
    (∃ q r : State, exec (.div rd rs1 rs2) s = .next q ∧ exec (.rem rd rs1 rs2) s = .next r ∧
      s.x rs1 = s.x rs2 * q.x rd + r.x rd ∧ (r.x rd).toInt.natAbs < (s.x rs2).toInt.natAbs ∧
      ((s.x rs1).toInt ≥ 0 → (r.x rd).toInt ≥ 0) ∧ ((s.x rs1).toInt ≤ 0 → (r.x rd).toInt ≤ 0)) ∧
    (∃ q r : State, exec (.divu rd rs1 rs2) s = .next q ∧ exec (.remu rd rs1 rs2) s = .next r ∧
      s.x rs1 = s.x rs2 * q.x rd + r.x rd ∧ (r.x rd).toNat < (s.x rs2).toNat)

/-! ### Control transfer -/

/-- R141, R142: JAL and JALR, with their encodings: the link value, the target (bit 0 cleared for JALR, taken from the old `x[rs1]`),
and the illegal values of JALR's funct3. -/
def Obligations.Jumps : Prop :=
  (∀ (s : State) (rd : Reg) (imm : BitVec 21), imm.getLsbD 0 = false →
    WordMeans (jType imm rd 0b1101111) (.jal rd imm) s
      (WritesOneRegister rd (s.pc + 4) (s.pc + BitVec.ofInt 32 imm.toInt) s)) ∧
  (∀ (s : State) (rd rs1 : Reg) (imm : BitVec 12),
    WordMeans (iType imm rs1 0b000 rd 0b1100111) (.jalr rd rs1 imm) s
      (WritesOneRegister rd (s.pc + 4) (BitVec.ofNat 32 ((s.x rs1 + BitVec.ofInt 32 imm.toInt).toNat / 2 * 2)) s)) ∧
  (∀ (rd rs1 : Reg) (imm : BitVec 12) (funct3 : BitVec 3), funct3 ≠ 0 →
    decodeWord (iType imm rs1 funct3 rd 0b1100111) = .error .unknownMinor)

/-- R143 to R148: the six branches, with their encodings: the target if the condition holds, else `pc + 4`; no register is written. -/
def Obligations.Branches : Prop :=
  ∀ (s : State) (rs1 rs2 : Reg) (imm : BitVec 13), imm.getLsbD 0 = false →
    let a := s.x rs1
    let b := s.x rs2
    let target := s.pc + BitVec.ofInt 32 imm.toInt
    WordMeans (bType imm rs2 rs1 0b000 0b1100011) (.beq rs1 rs2 imm) s
      (OnlyRetires (if a.toNat = b.toNat then target else s.pc + 4) s) ∧
    WordMeans (bType imm rs2 rs1 0b001 0b1100011) (.bne rs1 rs2 imm) s
      (OnlyRetires (if a.toNat ≠ b.toNat then target else s.pc + 4) s) ∧
    WordMeans (bType imm rs2 rs1 0b100 0b1100011) (.blt rs1 rs2 imm) s
      (OnlyRetires (if a.toInt < b.toInt then target else s.pc + 4) s) ∧
    WordMeans (bType imm rs2 rs1 0b101 0b1100011) (.bge rs1 rs2 imm) s
      (OnlyRetires (if a.toInt ≥ b.toInt then target else s.pc + 4) s) ∧
    WordMeans (bType imm rs2 rs1 0b110 0b1100011) (.bltu rs1 rs2 imm) s
      (OnlyRetires (if a.toNat < b.toNat then target else s.pc + 4) s) ∧
    WordMeans (bType imm rs2 rs1 0b111 0b1100011) (.bgeu rs1 rs2 imm) s
      (OnlyRetires (if a.toNat ≥ b.toNat then target else s.pc + 4) s)

/-! ### Memory -/

/-- R41, R42: the bus primitives are total. Out of range a load returns 0 and a store changes nothing; in range a load returns the n
bytes, the lowest address in the low bits, and a store writes exactly those n bytes. -/
def Obligations.BusAbsorbsOutOfRange : Prop :=
  ∀ (s : State) (off : Nat) (n : Width) (v : Word),
    (off + n.bytes > s.cfg.dramSize → s.busLoad off n = 0 ∧ s.busStore off n v = s) ∧
    (off + n.bytes ≤ s.cfg.dramSize →
      (∀ k, k < 4 → (s.busLoad off n).extractLsb' (8 * k) 8 = if k < n.bytes then s.mem.read (off + k) else 0) ∧
      (s.mem.wf = true → ∀ k, k < n.bytes → (s.busStore off n v).mem.read (off + k) = v.extractLsb' (8 * k) 8) ∧
      SameMemoryOutside off n.bytes s (s.busStore off n v) ∧
      s.busStore off n v = { s with mem := (s.busStore off n v).mem })

/-- R66, R43: a load after a store of the same offset and width returns the value, and a narrower load of a stored word the bytes of it. -/
def Obligations.LoadAfterStore : Prop :=
  ∀ (s : State) (off : Nat) (v : Word), s.mem.wf = true → off + 4 ≤ s.cfg.dramSize →
    (∀ n : Width, (s.busStore off n v).busLoad off n = n.truncate v) ∧
    (∀ k, k < 4 → (s.busStore off .word v).busLoad (off + k) .byte = (v.extractLsb' (8 * k) 8).setWidth 32) ∧
    (∀ k, k < 3 → (s.busStore off .word v).busLoad (off + k) .half = (v.extractLsb' (8 * k) 16).setWidth 32)

/-- Every operation that changes the image keeps its canonical form and its bounds. -/
def Obligations.ImageStaysCanonical : Prop :=
  (∀ (s : State) (off : Nat) (n : Width) (v : Word), s.mem.wf = true → s.mem.below s.cfg.dramSize = true →
    (s.busStore off n v).mem.wf = true ∧ (s.busStore off n v).mem.below s.cfg.dramSize = true) ∧
  (∀ (m m' : Memory), m.wf = true → m'.wf = true → (∀ a, m.read a = m'.read a) → m = m')

/-- R47, R49: the control addresses of a configuration are matched by equality of the whole start address, each of the seven load
addresses and four store addresses its own port, and no other address is one. -/
def Obligations.ControlAddressesAreExact : Prop :=
  ∀ c : Config,
    let p := c.toParams
    loadPort p 0x10000000 = some .uart ∧ loadPort p 0x10000005 = some .uartStatus ∧ loadPort p 0x60000000 = some .id ∧
    loadPort p p.timerLAddr = some .timerL ∧ loadPort p p.timerHAddr = some .timerH ∧
    loadPort p p.matchLAddr = some .matchL ∧ loadPort p p.matchHAddr = some .matchH ∧
    (∀ a, a ∉ [0x10000000, 0x10000005, 0x60000000, p.timerLAddr, p.timerHAddr, p.matchLAddr, p.matchHAddr] →
      loadPort p a = none) ∧
    storePort p 0x10000000 = some .uart ∧ storePort p p.sysconAddr = some .syscon ∧
    storePort p p.matchLAddr = some .matchL ∧ storePort p p.matchHAddr = some .matchH ∧
    (∀ a, a ∉ [0x10000000, p.sysconAddr, p.matchLAddr, p.matchHAddr] → storePort p a = none)

/-- R161 to R165 in RAM: LB, LH, LW, LBU, LHU at an address that is no control load address and whose bytes are in RAM, at any
alignment, write the extended value of the bytes, the byte at the lowest address lowest. -/
def Obligations.LoadsFromRam : Prop :=
  ∀ (s : State) (rd rs1 : Reg) (imm : BitVec 12),
    let ea := s.x rs1 + BitVec.ofInt 32 imm.toInt
    let b := fun k : Nat => s.ramByte (ea + BitVec.ofNat 32 k)
    loadPort s.cfg.toParams ea = none →
    (s.offset ea + 1 ≤ s.cfg.dramSize →
      Completes (.lb rd rs1 imm) s (WritesOneRegister rd (BitVec.ofInt 32 (b 0).toInt) (s.pc + 4) s) ∧
      Completes (.lbu rd rs1 imm) s (WritesOneRegister rd (BitVec.ofNat 32 (b 0).toNat) (s.pc + 4) s)) ∧
    (s.offset ea + 2 ≤ s.cfg.dramSize →
      Completes (.lh rd rs1 imm) s (WritesOneRegister rd (BitVec.ofInt 32 (b 1 ++ b 0).toInt) (s.pc + 4) s) ∧
      Completes (.lhu rd rs1 imm) s (WritesOneRegister rd (BitVec.ofNat 32 (b 1 ++ b 0).toNat) (s.pc + 4) s)) ∧
    (s.offset ea + 4 ≤ s.cfg.dramSize →
      Completes (.lw rd rs1 imm) s (WritesOneRegister rd (b 3 ++ b 2 ++ b 1 ++ b 0) (s.pc + 4) s))

/-- R45, R51, R52, R54, R55: a load that starts at a control load address gets the device's 32-bit word: LW all of it, LB its low byte
sign-extended, LBU and LHU the low bytes zero-extended, LH the low half sign-extended. UART_ADDR consumes the first pending key or reads
0, UART_STATUS_ADDR reads 1 or 0 and consumes nothing, both may set the latch; ID_ADDR reads 67; the timer addresses read their halves.
`rd`, pc, cycle and that device state apart, nothing changes. -/
def Obligations.LoadsFromControlAddresses : Prop :=
  ∀ (s : State) (rd rs1 : Reg) (imm : BitVec 12),
    let p := s.cfg.toParams
    let ea := s.x rs1 + BitVec.ofInt 32 imm.toInt
    let closed := s.eofLatch || s.inputClosed
    let pending := !closed && decide (s.kbd ≠ [])
    let polled := { s with eofLatch := closed }
    let word : Word × State :=
      if ea = 0x10000000 then
        (if pending then BitVec.ofNat 32 (s.kbd.headD 0).toNat else 0,
          { polled with kbd := if pending then s.kbd.tail else s.kbd })
      else if ea = 0x10000005 then (if pending then 1 else 0, polled)
      else if ea = 0x60000000 then (67, s)
      else if ea = p.timerLAddr then (s.cycle.extractLsb' 0 32, s)
      else if ea = p.timerHAddr then (s.cycle.extractLsb' 32 32, s)
      else if ea = p.matchLAddr then (s.timermatch.extractLsb' 0 32, s)
      else (s.timermatch.extractLsb' 32 32, s)
    let w := word.1
    let after := fun (v : Word) (t : State) =>
      t.x rd = (if rd = 0 then 0 else v) ∧ (∀ r, r ≠ rd → t.x r = s.x r) ∧ Retired (s.pc + 4) s t ∧ SameMemory s t ∧
        SameSystem word.2 t
    ea ∈ [0x10000000, 0x10000005, 0x60000000, p.timerLAddr, p.timerHAddr, p.matchLAddr, p.matchHAddr] →
    Completes (.lw rd rs1 imm) s (after w) ∧
    Completes (.lh rd rs1 imm) s (after (BitVec.ofInt 32 (w.extractLsb' 0 16).toInt)) ∧
    Completes (.lhu rd rs1 imm) s (after (BitVec.ofNat 32 (w.toNat % 2 ^ 16))) ∧
    Completes (.lb rd rs1 imm) s (after (BitVec.ofInt 32 (w.extractLsb' 0 8).toInt)) ∧
    Completes (.lbu rd rs1 imm) s (after (BitVec.ofNat 32 (w.toNat % 2 ^ 8)))

/-- R166 to R168 in RAM: SB, SH, SW at an address that is no control store address and whose bytes are in RAM, at any alignment, write
the low bytes of `x[rs2]`, the low bits at the lowest address, and change no other byte, no register and no special register. -/
def Obligations.StoresToRam : Prop :=
  ∀ (s : State) (rs1 rs2 : Reg) (imm : BitVec 12), s.mem.wf = true →
    let ea := s.storeAddr rs1 imm
    let stored := fun (n : Nat) (t : State) =>
      (∀ k, k < n → t.ramByte (ea + BitVec.ofNat 32 k) = (s.x rs2).extractLsb' (8 * k) 8) ∧
        SameMemoryOutside (s.offset ea) n s t ∧ SameRegs s t ∧ Retired (s.pc + 4) s t ∧ SameSystem s t
    ea = s.x rs1 + BitVec.ofInt 32 imm.toInt ∧
    (storePort s.cfg.toParams ea = none →
      (s.offset ea + 1 ≤ s.cfg.dramSize → Completes (.sb rs1 rs2 imm) s (stored 1)) ∧
      (s.offset ea + 2 ≤ s.cfg.dramSize → Completes (.sh rs1 rs2 imm) s (stored 2)) ∧
      (s.offset ea + 4 ≤ s.cfg.dramSize → Completes (.sw rs1 rs2 imm) s (stored 4)))

/-- R46, R50, R55, R56: a store that starts at a control store address hands the device the value truncated to its width: UART_ADDR emits
one `ConsoleChar` of the low byte; MATCHL_ADDR and MATCHH_ADDR replace a whole half of `timermatch`; SYSCON_ADDR sets the result to
`PowerOff` or `ResetRequest` for the two values (and then `halted`), and does nothing for any other. No byte of memory and no register
changes. Where a configuration has SYSCON_POWEROFF = SYSCON_RESET, which R5 does not exclude, that the value requests `PowerOff` is the
model's choice (assumption 11). -/
def Obligations.StoresToControlAddresses : Prop :=
  ∀ (s : State) (rs1 rs2 : Reg) (imm : BitVec 12),
    let p := s.cfg.toParams
    let ea := s.x rs1 + BitVec.ofInt 32 imm.toInt
    let after := fun (w : Word) (t : State) =>
      let result : StepResult :=
        if ea ≠ p.sysconAddr then .normal
        else if w = p.sysconPowerOff then .powerOff
        else if w = p.sysconReset then .resetRequest
        else .normal
      t.pc = s.pc + 4 ∧ t.cycle = s.cycle + 1 ∧ t.result = result ∧
        t.halted = (s.halted || decide (result ≠ .normal)) ∧ SameRegs s t ∧ SameMemory s t ∧
        SameStatus s t ∧ SameSoftwareCsrs s t ∧ SameTrapCsrs s t ∧ SameReservation s t ∧ SameKeyboard s t ∧ SameRun s t ∧
        t.console = (if ea = 0x10000000 then s.console ++ [.consoleChar (w.extractLsb' 0 8)] else s.console) ∧
        t.timermatch.extractLsb' 0 32 = (if ea = p.matchLAddr then w else s.timermatch.extractLsb' 0 32) ∧
        t.timermatch.extractLsb' 32 32 = (if ea = p.matchHAddr then w else s.timermatch.extractLsb' 32 32)
    ea ∈ [0x10000000, p.sysconAddr, p.matchLAddr, p.matchHAddr] →
    Completes (.sw rs1 rs2 imm) s (after (s.x rs2)) ∧
    Completes (.sh rs1 rs2 imm) s (after (BitVec.ofNat 32 ((s.x rs2).toNat % 2 ^ 16))) ∧
    Completes (.sb rs1 rs2 imm) s (after (BitVec.ofNat 32 ((s.x rs2).toNat % 2 ^ 8)))

/-- R161 to R165: LB, LH, LW, LBU, LHU, with their encodings: what the arbiter's read of `ea` gives is extended and written to `rd`, and
the rest of the state is what that read leaves; outside RAM, at no control load address, cause 5 with mtval `ea` and nothing else; the
three other values of funct3 are illegal. -/
def Obligations.LoadInstructions : Prop :=
  ∀ (s : State) (rd rs1 : Reg) (imm : BitVec 12),
    let ea := s.x rs1 + BitVec.ofInt 32 imm.toInt
    let loads := fun (funct3 : BitVec 3) (i : Instr) (n : Width) (extend : Word → Word) =>
      decodeWord (iType imm rs1 funct3 rd 0b0000011) = .ok i ∧
      (∀ (v : Word) (u : State), s.memRead ea n = .ok (v, u) →
        Completes i s fun t =>
          t.x rd = (if rd = 0 then 0 else extend v) ∧ (∀ r, r ≠ rd → t.x r = s.x r) ∧ Retired (s.pc + 4) s t ∧
            SameMemory s t ∧ SameSystem u t) ∧
      (loadPort s.cfg.toParams ea = none → s.offset ea + n.bytes > s.cfg.dramSize →
        Completes i s (RaisedException .loadAccessFault ea s))
    loads 0b000 (.lb rd rs1 imm) .byte (fun v => BitVec.ofInt 32 (v.extractLsb' 0 8).toInt) ∧
    loads 0b001 (.lh rd rs1 imm) .half (fun v => BitVec.ofInt 32 (v.extractLsb' 0 16).toInt) ∧
    loads 0b010 (.lw rd rs1 imm) .word (fun v => v) ∧
    loads 0b100 (.lbu rd rs1 imm) .byte (fun v => BitVec.ofNat 32 (v.toNat % 2 ^ 8)) ∧
    loads 0b101 (.lhu rd rs1 imm) .half (fun v => BitVec.ofNat 32 (v.toNat % 2 ^ 16)) ∧
    (∀ funct3 : BitVec 3, funct3 ∈ [0b011#3, 0b110#3, 0b111#3] →
      decodeWord (iType imm rs1 funct3 rd 0b0000011) = .error .unknownMinor)

/-- R166 to R168: SB, SH, SW, with their encodings: the arbiter's write of `x[rs2]` at `ea` gives the state and the result code; outside
RAM, at no control store address, cause 7 with mtval `ea` and nothing else; the five other values of funct3 are illegal. -/
def Obligations.StoreInstructions : Prop :=
  ∀ (s : State) (rs1 rs2 : Reg) (imm : BitVec 12),
    let ea := s.x rs1 + BitVec.ofInt 32 imm.toInt
    let stores := fun (funct3 : BitVec 3) (i : Instr) (n : Width) =>
      decodeWord (sType imm rs2 rs1 funct3 0b0100011) = .ok i ∧
      (∀ (u : State) (result : StepResult), s.memWrite ea n (s.x rs2) = .ok (u, result) →
        Completes i s fun t =>
          t.pc = s.pc + 4 ∧ t.cycle = s.cycle + 1 ∧ t.result = result ∧ t.halted = (s.halted || result.endsRun) ∧
            SameRegs s t ∧ SameMemory u t ∧ SameSystem u t) ∧
      (storePort s.cfg.toParams ea = none → s.offset ea + n.bytes > s.cfg.dramSize →
        Completes i s (RaisedException .storeAccessFault ea s))
    stores 0b000 (.sb rs1 rs2 imm) .byte ∧ stores 0b001 (.sh rs1 rs2 imm) .half ∧ stores 0b010 (.sw rs1 rs2 imm) .word ∧
    (∀ funct3 : BitVec 3, 0b010 < funct3 → decodeWord (sType imm rs2 rs1 funct3 0b0100011) = .error .unknownMinor)

/-! ### Atomics -/

/-- R201: LR.W, with its encoding: in RAM it loads the word, at any alignment, and sets the reservation to its address, whatever `aq`,
`rl` and `rd`; outside RAM it raises cause 5; a nonzero rs2 field is illegal. -/
def Obligations.LoadReserved : Prop :=
  (∀ (s : State) (aq rl : Bool) (rd rs1 : Reg),
    let addr := s.x rs1
    let b := fun k : Nat => s.ramByte (addr + BitVec.ofNat 32 k)
    decodeWord (atomicType 0b00010 aq rl 0 rs1 rd) = .ok (.lrW aq rl rd rs1) ∧
    (s.offset addr + 4 ≤ s.cfg.dramSize →
      Completes (.lrW aq rl rd rs1) s fun t =>
        t.resvValid = true ∧ t.resvAddr = addr ∧
          WritesOneRegister rd (b 3 ++ b 2 ++ b 1 ++ b 0) (s.pc + 4) { s with resvValid := true, resvAddr := addr } t) ∧
    (s.offset addr + 4 > s.cfg.dramSize →
      Completes (.lrW aq rl rd rs1) s (RaisedException .loadAccessFault addr s))) ∧
  (∀ (aq rl : Bool) (rd rs1 rs2 : Reg), rs2 ≠ 0 →
    decodeWord (atomicType 0b00010 aq rl rs2 rs1 rd) = .error .unknownMinor)

/-- R202: SC.W, with its encoding: in RAM it succeeds exactly when the reservation is valid and holds its address: then it stores
`x[rs2]` and writes 0, else it writes 1 and no byte changes; either way the reservation becomes invalid. Outside RAM it raises cause 7
and nothing else happens. -/
def Obligations.StoreConditional : Prop :=
  ∀ (s : State) (aq rl : Bool) (rd rs1 rs2 : Reg), s.mem.wf = true →
    let addr := s.x rs1
    let after := fun (v : Word) (t : State) =>
      t.x rd = (if rd = 0 then 0 else v) ∧ (∀ r, r ≠ rd → t.x r = s.x r) ∧ Retired (s.pc + 4) s t ∧
        SameSystem { s with resvValid := false } t
    decodeWord (atomicType 0b00011 aq rl rs2 rs1 rd) = .ok (.scW aq rl rd rs1 rs2) ∧
    (s.offset addr + 4 ≤ s.cfg.dramSize → s.resvValid = true ∧ s.resvAddr = addr →
      Completes (.scW aq rl rd rs1 rs2) s fun t =>
        after 0 t ∧ (∀ k, k < 4 → t.ramByte (addr + BitVec.ofNat 32 k) = (s.x rs2).extractLsb' (8 * k) 8) ∧
          SameMemoryOutside (s.offset addr) 4 s t) ∧
    (s.offset addr + 4 ≤ s.cfg.dramSize → ¬ (s.resvValid = true ∧ s.resvAddr = addr) →
      Completes (.scW aq rl rd rs1 rs2) s fun t => after 1 t ∧ SameMemory s t) ∧
    (s.offset addr + 4 > s.cfg.dramSize →
      Completes (.scW aq rl rd rs1 rs2) s (RaisedException .storeAccessFault addr s))

/-- R203 to R211: the nine AMOs, with their encodings: in RAM the old word goes to `rd` and `f(old, x[rs2])` to memory, for every `aq`
and `rl`; every other byte, register and special register, the reservation among them, is unchanged. Outside RAM they raise cause 7 and
nothing else happens. -/
def Obligations.AtomicMemoryOperations : Prop :=
  ∀ (s : State) (aq rl : Bool) (rd rs1 rs2 : Reg), s.mem.wf = true →
    let addr := s.x rs1
    let v := s.x rs2
    let b := fun k : Nat => s.ramByte (addr + BitVec.ofNat 32 k)
    let old : Word := b 3 ++ b 2 ++ b 1 ++ b 0
    let does := fun (funct5 : BitVec 5) (i : Instr) (new : Word) =>
      decodeWord (atomicType funct5 aq rl rs2 rs1 rd) = .ok i ∧
      (s.offset addr + 4 ≤ s.cfg.dramSize →
        Completes i s fun t =>
          t.x rd = (if rd = 0 then 0 else old) ∧ (∀ r, r ≠ rd → t.x r = s.x r) ∧ Retired (s.pc + 4) s t ∧ SameSystem s t ∧
            (∀ k, k < 4 → t.ramByte (addr + BitVec.ofNat 32 k) = new.extractLsb' (8 * k) 8) ∧
            SameMemoryOutside (s.offset addr) 4 s t) ∧
      (s.offset addr + 4 > s.cfg.dramSize → Completes i s (RaisedException .storeAccessFault addr s))
    does 0b00001 (.amoswapW aq rl rd rs1 rs2) v ∧
    does 0b00000 (.amoaddW aq rl rd rs1 rs2) (BitVec.ofNat 32 (old.toNat + v.toNat)) ∧
    does 0b00100 (.amoxorW aq rl rd rs1 rs2) (old ^^^ v) ∧
    does 0b01100 (.amoandW aq rl rd rs1 rs2) (old &&& v) ∧
    does 0b01000 (.amoorW aq rl rd rs1 rs2) (old ||| v) ∧
    does 0b10000 (.amominW aq rl rd rs1 rs2) (BitVec.ofInt 32 (min old.toInt v.toInt)) ∧
    does 0b10100 (.amomaxW aq rl rd rs1 rs2) (BitVec.ofInt 32 (max old.toInt v.toInt)) ∧
    does 0b11000 (.amominuW aq rl rd rs1 rs2) (BitVec.ofNat 32 (min old.toNat v.toNat)) ∧
    does 0b11100 (.amomaxuW aq rl rd rs1 rs2) (BitVec.ofNat 32 (max old.toNat v.toNat))

/-- R212: after an LR.W that did not trap, and any instructions without an SC.W among them, traps included, an SC.W to the same address
succeeds: it writes 0 and stores its data. Another LR.W in between is left out, since it moves the reservation (R201). -/
def Obligations.StoreConditionalSucceedsAfterLoadReserved : Prop :=
  ∀ (s t u : State) (aq rl aq' rl' : Bool) (rd rs1 rd' rs1' rs2' : Reg) (between : List Instr),
    s.mem.wf = true → exec (.lrW aq rl rd rs1) s = .next t → t.result = .normal →
    (∀ i ∈ between, i.mnemonic ≠ "SC.W" ∧ i.mnemonic ≠ "LR.W") → execAll between t = .next u → u.x rs1' = s.x rs1 →
    Completes (.scW aq' rl' rd' rs1' rs2') u fun v =>
      v.result = .normal ∧ v.x rd' = 0 ∧ v.busLoad (v.offset (s.x rs1)) .word = u.x rs2'

/-! ### Fences, system instructions, CSRs -/

/-- R220, R221, R225: FENCE and FENCE.I, whatever their other fields, and WFI, in any mode, change pc and cycle only; the other values of
funct3 under MISC-MEM are illegal. -/
def Obligations.FencesAndWfiAreNoOps : Prop :=
  ∀ (s : State) (fm pred succ : BitVec 4) (imm : BitVec 12) (rs1 rd : Reg),
    WordMeans (iType (fm ++ pred ++ succ) rs1 0b000 rd 0b0001111) (.fence fm pred succ rs1 rd) s (OnlyRetires (s.pc + 4) s) ∧
    WordMeans (iType imm rs1 0b001 rd 0b0001111) (.fenceI imm rs1 rd) s (OnlyRetires (s.pc + 4) s) ∧
    WordMeans 0x10500073 .wfi s (OnlyRetires (s.pc + 4) s) ∧
    (∀ funct3 : BitVec 3, 0b001 < funct3 → decodeWord (iType imm rs1 funct3 rd 0b0001111) = .error .unknownMinor)

/-- R222, R223: ECALL traps with cause `8 + priv` and mtval 0, EBREAK with cause 3 and mtval its own address; mepc is the address of the
instruction itself. -/
def Obligations.EnvironmentCallAndBreakpoint : Prop :=
  ∀ s : State,
    WordMeans 0x00000073 .ecall s (fun t =>
      RaisedException (.envCall s.priv) 0 s t ∧ t.mcause.toNat = 8 + s.priv.toNat ∧ t.mepc = s.pc) ∧
    WordMeans 0x00100073 .ebreak s (fun t =>
      RaisedException .breakpoint s.pc s t ∧ t.mcause = 3 ∧ t.mepc = s.pc)

/-- R224, R262: MRET, in any mode: pc from mepc, all 32 bits; `priv` from MPP, MIE from MPIE, MPIE 1, MPP 0; nothing else changes. -/
def Obligations.ReturnFromTrap : Prop :=
  ∀ s : State,
    WordMeans 0x30200073 .mret s fun t =>
      t.priv = s.statusMPP ∧ t.statusMIE = s.statusMPIE ∧ t.statusMPIE = true ∧ t.statusMPP = 0 ∧ Retired s.mepc s t ∧
        SameRegs s t ∧ SameMemory s t ∧ SameSoftwareCsrs s t ∧ SameTrapCsrs s t ∧ t.timermatch = s.timermatch ∧
        SameReservation s t ∧ SameKeyboard s t ∧ t.console = s.console ∧ SameRun s t

/-- R262, last paragraph: trap entry followed directly by MRET gives pc (the saved one), `priv` and MIE their values from before the
trap, with MPIE 1 and MPP 0. -/
def Obligations.TrapThenReturnRestores : Prop :=
  ∀ (s : State) (cause epc tval : Word),
    Completes .mret (s.trapEntry cause epc tval) fun t =>
      t.pc = epc ∧ t.priv = s.priv ∧ t.statusMIE = s.statusMIE ∧ t.statusMPIE = true ∧ t.statusMPP = 0 ∧ SameRegs s t ∧
        SameMemory s t ∧ SameReservation s t

/-- R226 to R231, R232: the six CSR instructions, with their encodings: whether each reads and writes depends on the register numbers or
`uimm` only; `old` goes to `rd`; the value written is computed from `old` and the source; `CsrRead` and `CsrWrite` apart, only pc and
cycle change; none raises an exception (R233). -/
def Obligations.CsrInstructions : Prop :=
  ∀ (s : State) (rd rs1 : Reg) (c : CsrNum) (uimm : BitVec 5),
    let z : Word := BitVec.ofNat 32 uimm.toNat
    let does := fun (reads writes : Prop) (new : Word → Word) (t : State) =>
      ∃ (old : Word) (s1 s2 : State),
        (reads → (old, s1) = s.csrRead c) ∧ (¬ reads → rd = 0 ∧ s1 = s) ∧
        (writes → s2 = s1.csrWrite c (new old)) ∧ (¬ writes → s2 = s1) ∧
        t.x rd = (if rd = 0 then 0 else old) ∧ (∀ r, r ≠ rd → t.x r = s.x r) ∧ Retired (s.pc + 4) s t ∧ SameMemory s t ∧
        SameSystem s2 t
    WordMeans (csrType c rs1 0b001 rd) (.csrrw rd c rs1) s (does (rd ≠ 0) True fun _ => s.x rs1) ∧
    WordMeans (csrType c rs1 0b010 rd) (.csrrs rd c rs1) s (does True (rs1 ≠ 0) fun old => old ||| s.x rs1) ∧
    WordMeans (csrType c rs1 0b011 rd) (.csrrc rd c rs1) s (does True (rs1 ≠ 0) fun old => old &&& ~~~s.x rs1) ∧
    WordMeans (csrImmType c uimm 0b101 rd) (.csrrwi rd c uimm) s (does (rd ≠ 0) True fun _ => z) ∧
    WordMeans (csrImmType c uimm 0b110 rd) (.csrrsi rd c uimm) s (does True (uimm ≠ 0) fun old => old ||| z) ∧
    WordMeans (csrImmType c uimm 0b111 rd) (.csrrci rd c uimm) s (does True (uimm ≠ 0) fun old => old &&& ~~~z)

/-- R235: what `CsrRead` returns for each of the numbers of R29 and for every other, and the state it leaves: only `0x140` and `0x141`
have a side effect, on the keyboard. -/
def Obligations.CsrReadValues : Prop :=
  ∀ s : State,
    let closed := s.eofLatch || s.inputClosed
    let pending := !closed && decide (s.kbd ≠ [])
    let polled := { s with eofLatch := closed }
    s.csrRead 0x300 =
      (BitVec.ofNat 32 (s.statusMPP.toNat * 2 ^ 11 + s.statusMPIE.toNat * 2 ^ 7 + s.statusMIE.toNat * 2 ^ 3), s) ∧
    s.csrRead 0x304 = (s.mie, s) ∧ s.csrRead 0x305 = (s.mtvec, s) ∧ s.csrRead 0x340 = (s.mscratch, s) ∧
    s.csrRead 0x341 = (s.mepc, s) ∧ s.csrRead 0x342 = (s.mcause, s) ∧ s.csrRead 0x343 = (s.mtval, s) ∧
    s.csrRead 0x344 =
      (if s.timermatch.toNat ≠ 0 ∧ s.timermatch.toNat ≤ s.cycle.toNat then 0x80 else 0, s) ∧
    s.csrRead 0xC00 = (BitVec.ofNat 32 (s.cycle.toNat % 2 ^ 32), s) ∧
    s.csrRead 0xC01 = (BitVec.ofNat 32 (s.cycle.toNat % 2 ^ 32), s) ∧
    s.csrRead 0xC80 = (BitVec.ofNat 32 (s.cycle.toNat / 2 ^ 32), s) ∧
    s.csrRead 0xC81 = (BitVec.ofNat 32 (s.cycle.toNat / 2 ^ 32), s) ∧
    s.csrRead 0x141 = (if pending then 1 else 0, polled) ∧
    s.csrRead 0x140 =
      (if pending then BitVec.ofNat 32 (s.kbd.headD 0).toNat else 0xFFFFFFFF,
        { polled with kbd := if pending then s.kbd.tail else s.kbd }) ∧
    (∀ c : CsrNum,
      c ∉ [0x300, 0x304, 0x305, 0x340, 0x341, 0x342, 0x343, 0x344, 0xC00, 0xC01, 0xC80, 0xC81, 0x140, 0x141] →
      s.csrRead c = (0, s))

/-- R236: what `CsrWrite` does for each number of R29: the three fields of mstatus without `priv`, whole registers, one console event;
every other number, written, changes nothing. How the device renders the events: `Dec(v)` is the shortest decimal numeral of `v`, 1 to
10 ASCII digits without a leading zero, `Hex8(v)` is eight hexadecimal digits, lower case by default; both have the value `v`. -/
def Obligations.CsrWriteEffects : Prop :=
  (∀ (s : State) (v : Word),
    s.csrWrite 0x300 v =
      { s with
        statusMPP := BitVec.ofNat 2 (v.toNat / 2 ^ 11)
        statusMPIE := v.toNat.testBit 7
        statusMIE := v.toNat.testBit 3 } ∧
    s.csrWrite 0x304 v = { s with mie := v } ∧ s.csrWrite 0x305 v = { s with mtvec := v } ∧
    s.csrWrite 0x340 v = { s with mscratch := v } ∧ s.csrWrite 0x341 v = { s with mepc := v } ∧
    s.csrWrite 0x342 v = { s with mcause := v } ∧ s.csrWrite 0x343 v = { s with mtval := v } ∧
    s.csrWrite 0x402 v = { s with console := s.console ++ [.consoleChar (BitVec.ofNat 8 v.toNat)] } ∧
    s.csrWrite 0x139 v = { s with console := s.console ++ [.consoleRaw (BitVec.ofNat 8 v.toNat)] } ∧
    s.csrWrite 0x136 v = { s with console := s.console ++ [.consoleDecimal v] } ∧
    s.csrWrite 0x137 v = { s with console := s.console ++ [.consoleHex v] } ∧
    (∀ c : CsrNum,
      c ∉ [0x300, 0x304, 0x305, 0x340, 0x341, 0x342, 0x343, 0x402, 0x139, 0x136, 0x137] → s.csrWrite c v = s)) ∧
  (∀ (v : Word) (b : Byte) (upper : Bool),
    let dec := (ConsoleEvent.consoleDecimal v).render upper
    let hex := (ConsoleEvent.consoleHex v).render upper
    (ConsoleEvent.consoleChar b).render upper = [b] ∧ (ConsoleEvent.consoleRaw b).render upper = [b] ∧
    dec.foldl (fun n c => n * 10 + (c.toNat - 48)) 0 = v.toNat ∧ (∀ c ∈ dec, 48 ≤ c.toNat ∧ c.toNat ≤ 57) ∧
    1 ≤ dec.length ∧ dec.length ≤ 10 ∧ (dec.length ≠ 1 → dec.head? ≠ some 48) ∧
    hex.length = 8 ∧
    hex.foldl (fun n c => n * 16 + (if c.toNat ≤ 57 then c.toNat - 48 else if upper then c.toNat - 55 else c.toNat - 87)) 0 =
      v.toNat ∧
    (∀ c ∈ hex, (48 ≤ c.toNat ∧ c.toNat ≤ 57) ∨
      (if upper then 65 ≤ c.toNat ∧ c.toNat ≤ 70 else 97 ≤ c.toNat ∧ c.toNat ≤ 102))) ∧
  Config.default.hexUppercase = false

/-! ### Whole-machine rules -/

/-- R256, R252, R255: an instruction that traps has changed nothing but what trap entry changes and `cycle`; ECALL raises 8 + priv and
EBREAK raises 3 always; of the others, loads and LR.W raise only cause 5, stores, SC.W and AMOs only cause 7, and no other instruction
raises anything. -/
def Obligations.TrapsArePrecise : Prop :=
  ∀ (i : Instr) (s t : State) (e : Exception), exec i s = .next t → t.result = .trapped e →
    (∃ info, RaisedException e info s t) ∧
    ((i = .ecall ∧ e = .envCall s.priv) ∨ (i = .ebreak ∧ e = .breakpoint) ∨
      (i.mnemonic ∈ loadMnemonics ++ ["LR.W"] ∧ e = .loadAccessFault) ∨
      (i.mnemonic ∈ storeMnemonics ++ amoMnemonics ++ ["SC.W"] ∧ e = .storeAccessFault))

/-- R66, last sentence: an instruction that is no store, SC.W or AMO leaves every byte of memory as it was; those change at most four
bytes, at the address their rule computes. -/
def Obligations.OnlyStoresChangeMemory : Prop :=
  ∀ (i : Instr) (s t : State), exec i s = .next t →
    (i.mnemonic ∉ storeMnemonics ++ amoMnemonics ++ ["SC.W"] → SameMemory s t) ∧
    (∀ rs1 rs2 imm, i = .sb rs1 rs2 imm → SameMemoryOutside (s.offset (s.storeAddr rs1 imm)) 1 s t) ∧
    (∀ rs1 rs2 imm, i = .sh rs1 rs2 imm → SameMemoryOutside (s.offset (s.storeAddr rs1 imm)) 2 s t) ∧
    (∀ rs1 rs2 imm, i = .sw rs1 rs2 imm → SameMemoryOutside (s.offset (s.storeAddr rs1 imm)) 4 s t)

/-- R30, R200: only LR.W and SC.W change the reservation; not a trap, not MRET, not a store, not an AMO, not an interrupt. -/
def Obligations.OnlyLrAndScChangeTheReservation : Prop :=
  (∀ (i : Instr) (s t : State), exec i s = .next t → i.mnemonic ≠ "LR.W" → i.mnemonic ≠ "SC.W" → SameReservation s t) ∧
  (∀ (i : Instr) (s t : State) (e : Exception), exec i s = .next t → t.result = .trapped e → SameReservation s t) ∧
  (∀ s t : State, step s = .next t → s.hostTurn.timerInterruptReady = true → SameReservation s t)

/-- R263: the mode changes to 3 by a trap and to MPP by MRET, and by nothing else. -/
def Obligations.ModeChangesOnlyByTrapAndReturn : Prop :=
  ∀ (i : Instr) (s t : State), exec i s = .next t →
    (i = .mret ∧ t.priv = s.statusMPP) ∨ ((∃ e, t.result = .trapped e) ∧ t.priv = 3) ∨
      (i ≠ .mret ∧ t.result.endsRun = (t.result != .normal) ∧ t.priv = s.priv)

/-- R264: `priv` permits and forbids nothing. Two states that differ in `priv` only fetch the same instruction, and run every
instruction but ECALL alike: the states after it differ at most in `priv` and MPP. -/
def Obligations.PrivilegeForbidsNothing : Prop :=
  ∀ (s : State) (p : BitVec 2),
    State.fetchInstr { s with priv := p } = s.fetchInstr ∧
    ∀ i : Instr, i ≠ .ecall →
      ∃ t u, exec i s = .next t ∧ exec i { s with priv := p } = .next u ∧ EqualButMode t u ∧ t.result = u.result

/-- R98, R301: of a state that is not halted, an instruction ends the run only as a store that starts at SYSCON_ADDR and hands it one of
the two values, and then `halted` is set; otherwise `halted` stays 0. -/
def Obligations.RunEndsOnlyByRequest : Prop :=
  ∀ (i : Instr) (s t : State), s.halted = false → exec i s = .next t →
    (t.halted = true ↔ t.result = .powerOff ∨ t.result = .resetRequest) ∧
    (t.halted = true → ∃ (rs1 rs2 : Reg) (imm : BitVec 12) (w : Word),
      ((i = .sw rs1 rs2 imm ∧ w = s.x rs2) ∨ (i = .sh rs1 rs2 imm ∧ w.toNat = (s.x rs2).toNat % 2 ^ 16) ∨
        (i = .sb rs1 rs2 imm ∧ w.toNat = (s.x rs2).toNat % 2 ^ 8)) ∧
      s.storeAddr rs1 imm = s.cfg.sysconAddr ∧ (w = s.cfg.sysconPowerOff ∨ w = s.cfg.sysconReset))

/-- R53: once the end of input is latched it stays latched over every step, and no key is ever pending again. -/
def Obligations.EndOfInputIsLatched : Prop :=
  ∀ s t : State, s.eofLatch = true → step s = .next t → t.eofLatch = true ∧ t.keyPending = false

/-- R261: with a handler address outside RAM, in machine mode with MIE clear and a host that does nothing, every later step traps again:
after `n` more steps the state is the same but for `cycle`. -/
def Obligations.BadHandlerTrapsForEver : Prop :=
  ∀ (s t : State), s.halted = false → s.hostInputs = [] → s.offset s.trapTarget ≥ s.cfg.dramSize →
    s.pc = s.trapTarget → s.priv = 3 → s.statusMIE = false → step s = .next t →
    RaisedException .instrAccessFault s.pc s.hostTurn t ∧
    ∀ n : Nat, batch n t = .next { t with cycle := t.cycle + BitVec.ofNat 64 n }

/-- The invariant is kept by every step and by every start of a run, and no step changes a parameter (R35). -/
def Obligations.StepKeepsTheInvariant : Prop :=
  (∀ s t : State, s.Inv → step s = .next t → t.Inv ∧ t.cfg = s.cfg) ∧
  (∀ (s t : State) (img : List Byte), s.Inv → s.restart img = .next t → t.Inv ∧ t.cfg = s.cfg)

/-- The invariant holds after reset. -/
def Obligations.ResetSatisfiesTheInvariant : Prop := State.reset.Inv

/-! ### Reset -/

/-- R290, R36, R295, R296: a start of a run with an image of at most DRAM_SIZE bytes gives every piece of the block its reset value,
memory the image from offset 0 and zero after it, and leaves the device's keyboard and the console as they were; a longer image starts
no run. That the host's schedule is kept (assumption 6), that `stepTaken` is false (assumption 18), that the console's events and the
stream's state are fields that are kept (assumptions 5 and 7) and that a longer image is the refusal `imageTooLong` (assumption 10) are
the model's choices. -/
def Obligations.RestartGivesTheResetState : Prop :=
  ∀ (s : State) (img : List Byte),
    (img.length > s.cfg.dramSize → s.restart img = .refused .imageTooLong) ∧
    (img.length ≤ s.cfg.dramSize → ∃ t, s.restart img = .next t ∧
      (∀ r, t.x r = 0) ∧ t.pc = s.cfg.ramBase ∧ t.priv = 3 ∧ t.statusMIE = false ∧ t.statusMPIE = false ∧ t.statusMPP = 0 ∧
      t.mie = 0 ∧ t.mtvec = 0 ∧ t.mscratch = 0 ∧ t.mepc = 0 ∧ t.mcause = 0 ∧ t.mtval = 0 ∧ t.cycle = 0 ∧ t.timermatch = 0 ∧
      t.resvValid = false ∧ t.resvAddr = 0 ∧ t.halted = false ∧ (∀ off, t.mem.read off = img.getD off 0) ∧
      SameKeyboard s t ∧ t.console = s.console ∧ t.cfg = s.cfg ∧ t.hostInputs = s.hostInputs ∧ t.stepTaken = false) ∧
    s.resetHart.mem = s.mem ∧ SameKeyboard s s.resetHart

/-- R295, R292: between the image load and the first step nothing touches the block: the host's turn before that step changes only the
device's keyboard (R31), the schedule and the mark that a step is taken (assumptions 6 and 18). That step finds `cycle` 0 and no interrupt
ready, and fetches the first four bytes of the image at RAM_BASE, for a RAM_BASE that is a multiple of 4 (assumption 12); `cycle` is 1
after it. -/
def Obligations.NothingTouchesTheBlockBeforeTheFirstStep : Prop :=
  ∀ (s t : State) (img : List Byte), s.restart img = .next t →
    let u := t.hostTurn
    u = { t with kbd := u.kbd, inputClosed := u.inputClosed, hostInputs := u.hostInputs, stepTaken := true } ∧
    u.cycle = 0 ∧ u.timerInterruptReady = false ∧ u.pc = s.cfg.ramBase ∧
    (s.cfg.ramBase.toNat % 4 = 0 →
      u.fetchWord u.pc = .ok (img.getD 3 0 ++ img.getD 2 0 ++ img.getD 1 0 ++ img.getD 0 0)) ∧
    ∀ v : State, step t = .next v → v.cycle = 1

/-- R36, R292: the values the spec gives for reset hold of `State.reset`. That its image is empty and its configuration the defaults is
the model's choice (assumptions 1 and 8). -/
def Obligations.ResetValues : Prop :=
  (∀ r, State.reset.x r = 0) ∧ State.reset.pc = State.reset.cfg.ramBase ∧ State.reset.priv = 3 ∧
  State.reset.statusMIE = false ∧ State.reset.statusMPIE = false ∧ State.reset.statusMPP = 0 ∧ State.reset.mie = 0 ∧
  State.reset.mtvec = 0 ∧ State.reset.mscratch = 0 ∧ State.reset.mepc = 0 ∧ State.reset.mcause = 0 ∧ State.reset.mtval = 0 ∧
  State.reset.cycle = 0 ∧ State.reset.timermatch = 0 ∧ State.reset.resvValid = false ∧ State.reset.resvAddr = 0 ∧
  State.reset.halted = false ∧ State.reset.eofLatch = false ∧ (∀ off, State.reset.mem.read off = 0) ∧
  State.reset.timerInterruptReady = false

/-- R85: the expansion of `li rd, imm` leaves `imm` in `rd` for every 32-bit `imm` and every `rd` but x0, and changes no other
register and no byte of memory. -/
def Obligations.LoadImmediateExpansionLoads : Prop :=
  ∀ (s : State) (rd : Reg) (imm : Word), rd ≠ 0 →
    ∃ t, execAll (Pseudo.expand s.pc (.li rd imm)) s = .next t ∧ t.x rd = imm ∧ (∀ r, r ≠ rd → t.x r = s.x r) ∧ SameMemory s t
end

