-- ==== Sys2Proof/Laws/Arith.lean ====
section
/-! SUPPORT. The operand forms and shifts as integer arithmetic: what an immediate, a shift and a high product are as numbers. -/

namespace Sys2Proof.Machine

/-! ### Immediates -/

theorem immI_eq (imm : BitVec 12) : immI imm = BitVec.ofInt 32 imm.toInt := by
  simp [immI, BitVec.signExtend]

theorem immS_eq (imm : BitVec 12) : immS imm = BitVec.ofInt 32 imm.toInt := by
  simp [immS, BitVec.signExtend]

theorem immB_eq (imm : BitVec 13) : immB imm = BitVec.ofInt 32 imm.toInt := by
  simp [immB, BitVec.signExtend]

theorem immJ_eq (imm : BitVec 21) : immJ imm = BitVec.ofInt 32 imm.toInt := by
  simp [immJ, BitVec.signExtend]

/-- Sign extension keeps the value (R73). -/
theorem immI_toInt (imm : BitVec 12) : (immI imm).toInt = imm.toInt :=
  BitVec.toInt_signExtend_of_le (by decide)

theorem immU_eq (imm : BitVec 20) : immU imm = BitVec.ofNat 32 (imm.toNat * 4096) := by
  apply BitVec.eq_of_toNat_eq
  have h : (immU imm).toNat = imm.toNat <<< 12 ||| 0 := BitVec.toNat_append imm 0#12
  rw [h, Nat.or_zero, Nat.shiftLeft_eq, BitVec.toNat_ofNat, Nat.mod_eq_of_lt]
  have := imm.isLt
  omega

theorem immUimm_eq (uimm : BitVec 5) : immUimm uimm = BitVec.ofNat 32 uimm.toNat := by
  apply BitVec.eq_of_toNat_eq
  simp [immUimm]

/-! ### Shifts -/

theorem shiftAmount_eq (v : Word) : shiftAmount v = v.toNat % 32 := by
  simp [shiftAmount, BitVec.extractLsb'_toNat]

theorem shiftLeft_eq_mul (a : Word) (n : Nat) : a <<< n = BitVec.ofNat 32 (a.toNat * 2 ^ n) := by
  apply BitVec.eq_of_toNat_eq
  simp [Nat.shiftLeft_eq]

theorem ushiftRight_eq_div (a : Word) (n : Nat) : a >>> n = BitVec.ofNat 32 (a.toNat / 2 ^ n) := by
  apply BitVec.eq_of_toNat_eq
  rw [BitVec.toNat_ushiftRight, Nat.shiftRight_eq_div_pow, BitVec.toNat_ofNat]
  exact (Nat.mod_eq_of_lt (Nat.lt_of_le_of_lt (Nat.div_le_self _ _) a.isLt)).symm

theorem sshiftRight_eq_div (a : Word) (n : Nat) : a.sshiftRight n = BitVec.ofInt 32 (a.toInt / 2 ^ n) := by
  apply BitVec.eq_of_toInt_eq
  rw [BitVec.toInt_sshiftRight, Int.shiftRight_eq_div_pow, BitVec.toInt_ofInt]
  have h1 := BitVec.le_toInt a
  have h2 := BitVec.toInt_lt (x := a)
  have hp : (0 : Int) < 2 ^ n := by positivity
  push_cast
  simp only [Nat.add_one_sub_one] at h1 h2
  have h3 : (-2147483648 : Int) ≤ a.toInt / 2 ^ n := by
    rw [Int.le_ediv_iff_mul_le (by omega)]
    nlinarith
  have h4 : (a.toInt / 2 ^ n : Int) < 2147483648 := by
    rw [Int.ediv_lt_iff_lt_mul (by omega)]
    nlinarith
  symm
  apply Int.bmod_eq_of_le <;> push_cast <;> omega

/-! ### The high product -/

theorem highWord_eq (p : Int) : highWord p = (BitVec.ofInt 64 p).extractLsb' 32 32 := by
  apply BitVec.eq_of_toNat_eq
  simp [highWord, Nat.shiftRight_eq_div_pow]
  omega

/-! ### Division corners -/

theorem toInt_eq_zero_iff (b : Word) : b.toInt = 0 ↔ b = 0 := by
  constructor
  · intro h
    exact BitVec.eq_of_toInt_eq (by simpa using h)
  · rintro rfl
    rfl

theorem toNat_eq_zero_iff (b : Word) : b.toNat = 0 ↔ b = 0 := by
  constructor
  · intro h
    exact BitVec.eq_of_toNat_eq (by simpa using h)
  · rintro rfl
    rfl

/-- Signed division overflows for one pair of operands only (R185). -/
theorem division_overflow_iff (a b : Word) :
    (a.toInt = -2 ^ 31 ∧ b.toInt = -1) ↔ (a = 0x80000000 ∧ b = 0xFFFFFFFF) := by
  constructor
  · rintro ⟨h1, h2⟩
    exact ⟨BitVec.eq_of_toInt_eq (by rw [h1]; decide), BitVec.eq_of_toInt_eq (by rw [h2]; decide)⟩
  · rintro ⟨rfl, rfl⟩
    decide

end Sys2Proof.Machine
end

