-- ==== Sys2Proof/Laws/Decode.lean ====
section
/-! SUPPORT. The fields of a word built by each instruction format are the ones it was built from, and a word is put together again from
its fields. -/

namespace Sys2Proof

/-! ### Pieces of a word -/

/-- The bits above the last field are those of the fields before it. -/
theorem extract_skip {m n : Nat} (x : BitVec m) (y : BitVec n) (k len : Nat) :
    (x ++ y).extractLsb' (k + n) len = x.extractLsb' k len := by
  ext i hi
  have : ¬ k + n + i < n := by omega
  simp only [BitVec.getElem_extractLsb', BitVec.getLsbD_append, this, if_false]
  exact congrArg x.getLsbD (by omega)

theorem extract_last {m n : Nat} (x : BitVec m) (y : BitVec n) : (x ++ y).extractLsb' 0 n = y := by
  ext i hi
  simp [BitVec.getLsbD_append, hi]

theorem extract_all {n : Nat} (x : BitVec n) : x.extractLsb' 0 n = x := by
  ext i hi
  simp

/-- Two neighbouring pieces of a word are one piece of it. -/
theorem extract_glue {l : Nat} (w : BitVec l) (j m n : Nat) :
    w.extractLsb' (j + n) m ++ w.extractLsb' j n = w.extractLsb' j (m + n) := by
  ext i hi
  simp only [BitVec.getElem_append, BitVec.getElem_extractLsb']
  split
  · rfl
  · congr 1
    omega

/-- The register number of a 5-bit field. -/
@[simp] theorem toFin_regField (r : Reg) : (regField r).toFin = r := rfl

@[simp] theorem regField_toFin (w : BitVec 5) : regField w.toFin = w := rfl

/-! ### `rType` -/

@[simp] theorem funct7Of_rType (funct7 : BitVec 7) (rs2 rs1 : Reg) (funct3 : BitVec 3) (rd : Reg) (op : BitVec 7) : funct7Of (rType funct7 rs2 rs1 funct3 rd op) = funct7 :=
  (extract_skip _ _ 18 7).trans ((extract_skip _ _ 13 7).trans ((extract_skip _ _ 10 7).trans ((extract_skip _ _ 5 7).trans ((extract_skip _ _ 0 7).trans (extract_all _)))))

@[simp] theorem rs2Of_rType (funct7 : BitVec 7) (rs2 rs1 : Reg) (funct3 : BitVec 3) (rd : Reg) (op : BitVec 7) : rs2Of (rType funct7 rs2 rs1 funct3 rd op) = rs2 :=
  congrArg BitVec.toFin ((extract_skip _ _ 13 5).trans ((extract_skip _ _ 8 5).trans ((extract_skip _ _ 5 5).trans ((extract_skip _ _ 0 5).trans (extract_last _ _)))) : (rType funct7 rs2 rs1 funct3 rd op).extractLsb' 20 5 = regField rs2)

@[simp] theorem rs1Of_rType (funct7 : BitVec 7) (rs2 rs1 : Reg) (funct3 : BitVec 3) (rd : Reg) (op : BitVec 7) : rs1Of (rType funct7 rs2 rs1 funct3 rd op) = rs1 :=
  congrArg BitVec.toFin ((extract_skip _ _ 8 5).trans ((extract_skip _ _ 3 5).trans ((extract_skip _ _ 0 5).trans (extract_last _ _))) : (rType funct7 rs2 rs1 funct3 rd op).extractLsb' 15 5 = regField rs1)

@[simp] theorem funct3Of_rType (funct7 : BitVec 7) (rs2 rs1 : Reg) (funct3 : BitVec 3) (rd : Reg) (op : BitVec 7) : funct3Of (rType funct7 rs2 rs1 funct3 rd op) = funct3 :=
  (extract_skip _ _ 5 3).trans ((extract_skip _ _ 0 3).trans (extract_last _ _))

@[simp] theorem rdOf_rType (funct7 : BitVec 7) (rs2 rs1 : Reg) (funct3 : BitVec 3) (rd : Reg) (op : BitVec 7) : rdOf (rType funct7 rs2 rs1 funct3 rd op) = rd :=
  congrArg BitVec.toFin ((extract_skip _ _ 0 5).trans (extract_last _ _) : (rType funct7 rs2 rs1 funct3 rd op).extractLsb' 7 5 = regField rd)

@[simp] theorem opcodeOf_rType (funct7 : BitVec 7) (rs2 rs1 : Reg) (funct3 : BitVec 3) (rd : Reg) (op : BitVec 7) : opcodeOf (rType funct7 rs2 rs1 funct3 rd op) = op :=
  (extract_last _ _)

/-! ### `iType` -/

@[simp] theorem immIOf_iType (imm : BitVec 12) (rs1 : Reg) (funct3 : BitVec 3) (rd : Reg) (op : BitVec 7) : immIOf (iType imm rs1 funct3 rd op) = imm :=
  (extract_skip _ _ 13 12).trans ((extract_skip _ _ 8 12).trans ((extract_skip _ _ 5 12).trans ((extract_skip _ _ 0 12).trans (extract_all _))))

@[simp] theorem rs1Of_iType (imm : BitVec 12) (rs1 : Reg) (funct3 : BitVec 3) (rd : Reg) (op : BitVec 7) : rs1Of (iType imm rs1 funct3 rd op) = rs1 :=
  congrArg BitVec.toFin ((extract_skip _ _ 8 5).trans ((extract_skip _ _ 3 5).trans ((extract_skip _ _ 0 5).trans (extract_last _ _))) : (iType imm rs1 funct3 rd op).extractLsb' 15 5 = regField rs1)

@[simp] theorem funct3Of_iType (imm : BitVec 12) (rs1 : Reg) (funct3 : BitVec 3) (rd : Reg) (op : BitVec 7) : funct3Of (iType imm rs1 funct3 rd op) = funct3 :=
  (extract_skip _ _ 5 3).trans ((extract_skip _ _ 0 3).trans (extract_last _ _))

@[simp] theorem rdOf_iType (imm : BitVec 12) (rs1 : Reg) (funct3 : BitVec 3) (rd : Reg) (op : BitVec 7) : rdOf (iType imm rs1 funct3 rd op) = rd :=
  congrArg BitVec.toFin ((extract_skip _ _ 0 5).trans (extract_last _ _) : (iType imm rs1 funct3 rd op).extractLsb' 7 5 = regField rd)

@[simp] theorem opcodeOf_iType (imm : BitVec 12) (rs1 : Reg) (funct3 : BitVec 3) (rd : Reg) (op : BitVec 7) : opcodeOf (iType imm rs1 funct3 rd op) = op :=
  (extract_last _ _)

@[simp] theorem fmOf_iType (fm pred succ : BitVec 4) (rs1 : Reg) (funct3 : BitVec 3) (rd : Reg) (op : BitVec 7) :
    fmOf (iType (fm ++ pred ++ succ) rs1 funct3 rd op) = fm :=
  (extract_skip _ _ 21 4).trans ((extract_skip _ _ 16 4).trans ((extract_skip _ _ 13 4).trans ((extract_skip _ _ 8 4).trans
    ((extract_skip _ _ 4 4).trans ((extract_skip _ _ 0 4).trans (extract_all _))))))

@[simp] theorem predOf_iType (fm pred succ : BitVec 4) (rs1 : Reg) (funct3 : BitVec 3) (rd : Reg) (op : BitVec 7) :
    predOf (iType (fm ++ pred ++ succ) rs1 funct3 rd op) = pred :=
  (extract_skip _ _ 17 4).trans ((extract_skip _ _ 12 4).trans ((extract_skip _ _ 9 4).trans ((extract_skip _ _ 4 4).trans
    ((extract_skip _ _ 0 4).trans (extract_last _ _)))))

@[simp] theorem succOf_iType (fm pred succ : BitVec 4) (rs1 : Reg) (funct3 : BitVec 3) (rd : Reg) (op : BitVec 7) :
    succOf (iType (fm ++ pred ++ succ) rs1 funct3 rd op) = succ :=
  (extract_skip _ _ 13 4).trans ((extract_skip _ _ 8 4).trans ((extract_skip _ _ 5 4).trans ((extract_skip _ _ 0 4).trans
    (extract_last _ _))))

/-! ### `shiftType` -/

@[simp] theorem funct7Of_shiftType (funct7 : BitVec 7) (shamt : BitVec 5) (rs1 : Reg) (funct3 : BitVec 3) (rd : Reg) (op : BitVec 7) : funct7Of (shiftType funct7 shamt rs1 funct3 rd op) = funct7 :=
  (extract_skip _ _ 18 7).trans ((extract_skip _ _ 13 7).trans ((extract_skip _ _ 10 7).trans ((extract_skip _ _ 5 7).trans ((extract_skip _ _ 0 7).trans (extract_all _)))))

@[simp] theorem shamtOf_shiftType (funct7 : BitVec 7) (shamt : BitVec 5) (rs1 : Reg) (funct3 : BitVec 3) (rd : Reg) (op : BitVec 7) : shamtOf (shiftType funct7 shamt rs1 funct3 rd op) = shamt :=
  (extract_skip _ _ 13 5).trans ((extract_skip _ _ 8 5).trans ((extract_skip _ _ 5 5).trans ((extract_skip _ _ 0 5).trans (extract_last _ _))))

@[simp] theorem rs1Of_shiftType (funct7 : BitVec 7) (shamt : BitVec 5) (rs1 : Reg) (funct3 : BitVec 3) (rd : Reg) (op : BitVec 7) : rs1Of (shiftType funct7 shamt rs1 funct3 rd op) = rs1 :=
  congrArg BitVec.toFin ((extract_skip _ _ 8 5).trans ((extract_skip _ _ 3 5).trans ((extract_skip _ _ 0 5).trans (extract_last _ _))) : (shiftType funct7 shamt rs1 funct3 rd op).extractLsb' 15 5 = regField rs1)

@[simp] theorem funct3Of_shiftType (funct7 : BitVec 7) (shamt : BitVec 5) (rs1 : Reg) (funct3 : BitVec 3) (rd : Reg) (op : BitVec 7) : funct3Of (shiftType funct7 shamt rs1 funct3 rd op) = funct3 :=
  (extract_skip _ _ 5 3).trans ((extract_skip _ _ 0 3).trans (extract_last _ _))

@[simp] theorem rdOf_shiftType (funct7 : BitVec 7) (shamt : BitVec 5) (rs1 : Reg) (funct3 : BitVec 3) (rd : Reg) (op : BitVec 7) : rdOf (shiftType funct7 shamt rs1 funct3 rd op) = rd :=
  congrArg BitVec.toFin ((extract_skip _ _ 0 5).trans (extract_last _ _) : (shiftType funct7 shamt rs1 funct3 rd op).extractLsb' 7 5 = regField rd)

@[simp] theorem opcodeOf_shiftType (funct7 : BitVec 7) (shamt : BitVec 5) (rs1 : Reg) (funct3 : BitVec 3) (rd : Reg) (op : BitVec 7) : opcodeOf (shiftType funct7 shamt rs1 funct3 rd op) = op :=
  (extract_last _ _)

/-! ### `sType` -/

theorem extract_25_sType (imm : BitVec 12) (rs2 rs1 : Reg) (funct3 : BitVec 3) (op : BitVec 7) :
    (sType imm rs2 rs1 funct3 op).extractLsb' 25 7 = imm.extractLsb' 5 7 :=
  (extract_skip _ _ 18 7).trans ((extract_skip _ _ 13 7).trans ((extract_skip _ _ 10 7).trans ((extract_skip _ _ 5 7).trans ((extract_skip _ _ 0 7).trans (extract_all _)))))

@[simp] theorem rs2Of_sType (imm : BitVec 12) (rs2 rs1 : Reg) (funct3 : BitVec 3) (op : BitVec 7) : rs2Of (sType imm rs2 rs1 funct3 op) = rs2 :=
  congrArg BitVec.toFin ((extract_skip _ _ 13 5).trans ((extract_skip _ _ 8 5).trans ((extract_skip _ _ 5 5).trans ((extract_skip _ _ 0 5).trans (extract_last _ _)))) : (sType imm rs2 rs1 funct3 op).extractLsb' 20 5 = regField rs2)

@[simp] theorem rs1Of_sType (imm : BitVec 12) (rs2 rs1 : Reg) (funct3 : BitVec 3) (op : BitVec 7) : rs1Of (sType imm rs2 rs1 funct3 op) = rs1 :=
  congrArg BitVec.toFin ((extract_skip _ _ 8 5).trans ((extract_skip _ _ 3 5).trans ((extract_skip _ _ 0 5).trans (extract_last _ _))) : (sType imm rs2 rs1 funct3 op).extractLsb' 15 5 = regField rs1)

@[simp] theorem funct3Of_sType (imm : BitVec 12) (rs2 rs1 : Reg) (funct3 : BitVec 3) (op : BitVec 7) : funct3Of (sType imm rs2 rs1 funct3 op) = funct3 :=
  (extract_skip _ _ 5 3).trans ((extract_skip _ _ 0 3).trans (extract_last _ _))

theorem extract_7_sType (imm : BitVec 12) (rs2 rs1 : Reg) (funct3 : BitVec 3) (op : BitVec 7) :
    (sType imm rs2 rs1 funct3 op).extractLsb' 7 5 = imm.extractLsb' 0 5 :=
  (extract_skip _ _ 0 5).trans (extract_last _ _)

@[simp] theorem opcodeOf_sType (imm : BitVec 12) (rs2 rs1 : Reg) (funct3 : BitVec 3) (op : BitVec 7) : opcodeOf (sType imm rs2 rs1 funct3 op) = op :=
  (extract_last _ _)

@[simp] theorem immSOf_sType (imm : BitVec 12) (rs2 rs1 : Reg) (funct3 : BitVec 3) (op : BitVec 7) :
    immSOf (sType imm rs2 rs1 funct3 op) = imm := by
  unfold immSOf
  rw [extract_25_sType, extract_7_sType]
  exact (extract_glue imm 0 7 5).trans (extract_all imm)

/-! ### `bType` -/

theorem extract_31_bType (imm : BitVec 13) (rs2 rs1 : Reg) (funct3 : BitVec 3) (op : BitVec 7) :
    (bType imm rs2 rs1 funct3 op).extractLsb' 31 1 = imm.extractLsb' 12 1 :=
  (extract_skip _ _ 24 1).trans ((extract_skip _ _ 23 1).trans ((extract_skip _ _ 19 1).trans ((extract_skip _ _ 16 1).trans ((extract_skip _ _ 11 1).trans ((extract_skip _ _ 6 1).trans ((extract_skip _ _ 0 1).trans (extract_all _)))))))

theorem extract_25_bType (imm : BitVec 13) (rs2 rs1 : Reg) (funct3 : BitVec 3) (op : BitVec 7) :
    (bType imm rs2 rs1 funct3 op).extractLsb' 25 6 = imm.extractLsb' 5 6 :=
  (extract_skip _ _ 18 6).trans ((extract_skip _ _ 17 6).trans ((extract_skip _ _ 13 6).trans ((extract_skip _ _ 10 6).trans ((extract_skip _ _ 5 6).trans ((extract_skip _ _ 0 6).trans (extract_last _ _))))))

@[simp] theorem rs2Of_bType (imm : BitVec 13) (rs2 rs1 : Reg) (funct3 : BitVec 3) (op : BitVec 7) : rs2Of (bType imm rs2 rs1 funct3 op) = rs2 :=
  congrArg BitVec.toFin ((extract_skip _ _ 13 5).trans ((extract_skip _ _ 12 5).trans ((extract_skip _ _ 8 5).trans ((extract_skip _ _ 5 5).trans ((extract_skip _ _ 0 5).trans (extract_last _ _))))) : (bType imm rs2 rs1 funct3 op).extractLsb' 20 5 = regField rs2)

@[simp] theorem rs1Of_bType (imm : BitVec 13) (rs2 rs1 : Reg) (funct3 : BitVec 3) (op : BitVec 7) : rs1Of (bType imm rs2 rs1 funct3 op) = rs1 :=
  congrArg BitVec.toFin ((extract_skip _ _ 8 5).trans ((extract_skip _ _ 7 5).trans ((extract_skip _ _ 3 5).trans ((extract_skip _ _ 0 5).trans (extract_last _ _)))) : (bType imm rs2 rs1 funct3 op).extractLsb' 15 5 = regField rs1)

@[simp] theorem funct3Of_bType (imm : BitVec 13) (rs2 rs1 : Reg) (funct3 : BitVec 3) (op : BitVec 7) : funct3Of (bType imm rs2 rs1 funct3 op) = funct3 :=
  (extract_skip _ _ 5 3).trans ((extract_skip _ _ 4 3).trans ((extract_skip _ _ 0 3).trans (extract_last _ _)))

theorem extract_8_bType (imm : BitVec 13) (rs2 rs1 : Reg) (funct3 : BitVec 3) (op : BitVec 7) :
    (bType imm rs2 rs1 funct3 op).extractLsb' 8 4 = imm.extractLsb' 1 4 :=
  (extract_skip _ _ 1 4).trans ((extract_skip _ _ 0 4).trans (extract_last _ _))

theorem extract_7_bType (imm : BitVec 13) (rs2 rs1 : Reg) (funct3 : BitVec 3) (op : BitVec 7) :
    (bType imm rs2 rs1 funct3 op).extractLsb' 7 1 = imm.extractLsb' 11 1 :=
  (extract_skip _ _ 0 1).trans (extract_last _ _)

@[simp] theorem opcodeOf_bType (imm : BitVec 13) (rs2 rs1 : Reg) (funct3 : BitVec 3) (op : BitVec 7) : opcodeOf (bType imm rs2 rs1 funct3 op) = op :=
  (extract_last _ _)

/-- The offset comes back whole when its bit 0 is 0. -/
theorem immBOf_bType (imm : BitVec 13) (rs2 rs1 : Reg) (funct3 : BitVec 3) (op : BitVec 7) (h : imm.getLsbD 0 = false) :
    immBOf (bType imm rs2 rs1 funct3 op) = imm := by
  unfold immBOf
  rw [extract_31_bType, extract_7_bType, extract_25_bType, extract_8_bType]
  have h0 : 0#1 = imm.extractLsb' 0 1 := by
    ext i hi
    obtain rfl : i = 0 := by omega
    simpa using h
  rw [h0, extract_glue imm 11 1 1, extract_glue imm 5 _ 6, extract_glue imm 1 _ 4, extract_glue imm 0 _ 1]
  exact extract_all imm

/-! ### `uType` -/

@[simp] theorem immUOf_uType (imm : BitVec 20) (rd : Reg) (op : BitVec 7) : immUOf (uType imm rd op) = imm :=
  (extract_skip _ _ 5 20).trans ((extract_skip _ _ 0 20).trans (extract_all _))

@[simp] theorem rdOf_uType (imm : BitVec 20) (rd : Reg) (op : BitVec 7) : rdOf (uType imm rd op) = rd :=
  congrArg BitVec.toFin ((extract_skip _ _ 0 5).trans (extract_last _ _) : (uType imm rd op).extractLsb' 7 5 = regField rd)

@[simp] theorem opcodeOf_uType (imm : BitVec 20) (rd : Reg) (op : BitVec 7) : opcodeOf (uType imm rd op) = op :=
  (extract_last _ _)

/-! ### `jType` -/

theorem extract_31_jType (imm : BitVec 21) (rd : Reg) (op : BitVec 7) :
    (jType imm rd op).extractLsb' 31 1 = imm.extractLsb' 20 1 :=
  (extract_skip _ _ 24 1).trans ((extract_skip _ _ 19 1).trans ((extract_skip _ _ 11 1).trans ((extract_skip _ _ 10 1).trans ((extract_skip _ _ 0 1).trans (extract_all _)))))

theorem extract_21_jType (imm : BitVec 21) (rd : Reg) (op : BitVec 7) :
    (jType imm rd op).extractLsb' 21 10 = imm.extractLsb' 1 10 :=
  (extract_skip _ _ 14 10).trans ((extract_skip _ _ 9 10).trans ((extract_skip _ _ 1 10).trans ((extract_skip _ _ 0 10).trans (extract_last _ _))))

theorem extract_20_jType (imm : BitVec 21) (rd : Reg) (op : BitVec 7) :
    (jType imm rd op).extractLsb' 20 1 = imm.extractLsb' 11 1 :=
  (extract_skip _ _ 13 1).trans ((extract_skip _ _ 8 1).trans ((extract_skip _ _ 0 1).trans (extract_last _ _)))

theorem extract_12_jType (imm : BitVec 21) (rd : Reg) (op : BitVec 7) :
    (jType imm rd op).extractLsb' 12 8 = imm.extractLsb' 12 8 :=
  (extract_skip _ _ 5 8).trans ((extract_skip _ _ 0 8).trans (extract_last _ _))

@[simp] theorem rdOf_jType (imm : BitVec 21) (rd : Reg) (op : BitVec 7) : rdOf (jType imm rd op) = rd :=
  congrArg BitVec.toFin ((extract_skip _ _ 0 5).trans (extract_last _ _) : (jType imm rd op).extractLsb' 7 5 = regField rd)

@[simp] theorem opcodeOf_jType (imm : BitVec 21) (rd : Reg) (op : BitVec 7) : opcodeOf (jType imm rd op) = op :=
  (extract_last _ _)

/-- The offset comes back whole when its bit 0 is 0. -/
theorem immJOf_jType (imm : BitVec 21) (rd : Reg) (op : BitVec 7) (h : imm.getLsbD 0 = false) :
    immJOf (jType imm rd op) = imm := by
  unfold immJOf
  rw [extract_31_jType, extract_12_jType, extract_20_jType, extract_21_jType]
  have h0 : 0#1 = imm.extractLsb' 0 1 := by
    ext i hi
    obtain rfl : i = 0 := by omega
    simpa using h
  rw [h0, extract_glue imm 12 1 8, extract_glue imm 11 _ 1, extract_glue imm 1 _ 10, extract_glue imm 0 _ 1]
  exact extract_all imm

/-! ### `atomicType` -/

@[simp] theorem funct5Of_atomicType (funct5 : BitVec 5) (aq rl : Bool) (rs2 rs1 rd : Reg) : funct5Of (atomicType funct5 aq rl rs2 rs1 rd) = funct5 :=
  (extract_skip _ _ 20 5).trans ((extract_skip _ _ 15 5).trans ((extract_skip _ _ 12 5).trans ((extract_skip _ _ 7 5).trans ((extract_skip _ _ 2 5).trans ((extract_skip _ _ 1 5).trans ((extract_skip _ _ 0 5).trans (extract_all _)))))))

@[simp] theorem aqOf_atomicType (funct5 : BitVec 5) (aq rl : Bool) (rs2 rs1 rd : Reg) : aqOf (atomicType funct5 aq rl rs2 rs1 rd) = aq := by
  have h : (atomicType funct5 aq rl rs2 rs1 rd).extractLsb' 26 1 = BitVec.ofBool aq :=
    (extract_skip _ _ 19 1).trans ((extract_skip _ _ 14 1).trans ((extract_skip _ _ 11 1).trans ((extract_skip _ _ 6 1).trans ((extract_skip _ _ 1 1).trans ((extract_skip _ _ 0 1).trans (extract_last _ _))))))
  have := congrArg (fun x => x.getLsbD 0) h
  simpa [aqOf] using this

@[simp] theorem rlOf_atomicType (funct5 : BitVec 5) (aq rl : Bool) (rs2 rs1 rd : Reg) : rlOf (atomicType funct5 aq rl rs2 rs1 rd) = rl := by
  have h : (atomicType funct5 aq rl rs2 rs1 rd).extractLsb' 25 1 = BitVec.ofBool rl :=
    (extract_skip _ _ 18 1).trans ((extract_skip _ _ 13 1).trans ((extract_skip _ _ 10 1).trans ((extract_skip _ _ 5 1).trans ((extract_skip _ _ 0 1).trans (extract_last _ _)))))
  have := congrArg (fun x => x.getLsbD 0) h
  simpa [rlOf] using this

@[simp] theorem rs2Of_atomicType (funct5 : BitVec 5) (aq rl : Bool) (rs2 rs1 rd : Reg) : rs2Of (atomicType funct5 aq rl rs2 rs1 rd) = rs2 :=
  congrArg BitVec.toFin ((extract_skip _ _ 13 5).trans ((extract_skip _ _ 8 5).trans ((extract_skip _ _ 5 5).trans ((extract_skip _ _ 0 5).trans (extract_last _ _)))) : (atomicType funct5 aq rl rs2 rs1 rd).extractLsb' 20 5 = regField rs2)

@[simp] theorem rs1Of_atomicType (funct5 : BitVec 5) (aq rl : Bool) (rs2 rs1 rd : Reg) : rs1Of (atomicType funct5 aq rl rs2 rs1 rd) = rs1 :=
  congrArg BitVec.toFin ((extract_skip _ _ 8 5).trans ((extract_skip _ _ 3 5).trans ((extract_skip _ _ 0 5).trans (extract_last _ _))) : (atomicType funct5 aq rl rs2 rs1 rd).extractLsb' 15 5 = regField rs1)

@[simp] theorem funct3Of_atomicType (funct5 : BitVec 5) (aq rl : Bool) (rs2 rs1 rd : Reg) : funct3Of (atomicType funct5 aq rl rs2 rs1 rd) = 0b010 :=
  (extract_skip _ _ 5 3).trans ((extract_skip _ _ 0 3).trans (extract_last _ _))

@[simp] theorem rdOf_atomicType (funct5 : BitVec 5) (aq rl : Bool) (rs2 rs1 rd : Reg) : rdOf (atomicType funct5 aq rl rs2 rs1 rd) = rd :=
  congrArg BitVec.toFin ((extract_skip _ _ 0 5).trans (extract_last _ _) : (atomicType funct5 aq rl rs2 rs1 rd).extractLsb' 7 5 = regField rd)

@[simp] theorem opcodeOf_atomicType (funct5 : BitVec 5) (aq rl : Bool) (rs2 rs1 rd : Reg) : opcodeOf (atomicType funct5 aq rl rs2 rs1 rd) = 0b0101111 :=
  (extract_last _ _)

/-! ### `csrType` -/

@[simp] theorem csrOf_csrType (csr : CsrNum) (rs1 : Reg) (funct3 : BitVec 3) (rd : Reg) : csrOf (csrType csr rs1 funct3 rd) = csr :=
  (extract_skip _ _ 13 12).trans ((extract_skip _ _ 8 12).trans ((extract_skip _ _ 5 12).trans ((extract_skip _ _ 0 12).trans (extract_all _))))

@[simp] theorem rs1Of_csrType (csr : CsrNum) (rs1 : Reg) (funct3 : BitVec 3) (rd : Reg) : rs1Of (csrType csr rs1 funct3 rd) = rs1 :=
  congrArg BitVec.toFin ((extract_skip _ _ 8 5).trans ((extract_skip _ _ 3 5).trans ((extract_skip _ _ 0 5).trans (extract_last _ _))) : (csrType csr rs1 funct3 rd).extractLsb' 15 5 = regField rs1)

@[simp] theorem funct3Of_csrType (csr : CsrNum) (rs1 : Reg) (funct3 : BitVec 3) (rd : Reg) : funct3Of (csrType csr rs1 funct3 rd) = funct3 :=
  (extract_skip _ _ 5 3).trans ((extract_skip _ _ 0 3).trans (extract_last _ _))

@[simp] theorem rdOf_csrType (csr : CsrNum) (rs1 : Reg) (funct3 : BitVec 3) (rd : Reg) : rdOf (csrType csr rs1 funct3 rd) = rd :=
  congrArg BitVec.toFin ((extract_skip _ _ 0 5).trans (extract_last _ _) : (csrType csr rs1 funct3 rd).extractLsb' 7 5 = regField rd)

@[simp] theorem opcodeOf_csrType (csr : CsrNum) (rs1 : Reg) (funct3 : BitVec 3) (rd : Reg) : opcodeOf (csrType csr rs1 funct3 rd) = 0b1110011 :=
  (extract_last _ _)

/-! ### `csrImmType` -/

@[simp] theorem csrOf_csrImmType (csr : CsrNum) (uimm : BitVec 5) (funct3 : BitVec 3) (rd : Reg) : csrOf (csrImmType csr uimm funct3 rd) = csr :=
  (extract_skip _ _ 13 12).trans ((extract_skip _ _ 8 12).trans ((extract_skip _ _ 5 12).trans ((extract_skip _ _ 0 12).trans (extract_all _))))

@[simp] theorem uimmOf_csrImmType (csr : CsrNum) (uimm : BitVec 5) (funct3 : BitVec 3) (rd : Reg) : uimmOf (csrImmType csr uimm funct3 rd) = uimm :=
  (extract_skip _ _ 8 5).trans ((extract_skip _ _ 3 5).trans ((extract_skip _ _ 0 5).trans (extract_last _ _)))

@[simp] theorem funct3Of_csrImmType (csr : CsrNum) (uimm : BitVec 5) (funct3 : BitVec 3) (rd : Reg) : funct3Of (csrImmType csr uimm funct3 rd) = funct3 :=
  (extract_skip _ _ 5 3).trans ((extract_skip _ _ 0 3).trans (extract_last _ _))

@[simp] theorem rdOf_csrImmType (csr : CsrNum) (uimm : BitVec 5) (funct3 : BitVec 3) (rd : Reg) : rdOf (csrImmType csr uimm funct3 rd) = rd :=
  congrArg BitVec.toFin ((extract_skip _ _ 0 5).trans (extract_last _ _) : (csrImmType csr uimm funct3 rd).extractLsb' 7 5 = regField rd)

@[simp] theorem opcodeOf_csrImmType (csr : CsrNum) (uimm : BitVec 5) (funct3 : BitVec 3) (rd : Reg) : opcodeOf (csrImmType csr uimm funct3 rd) = 0b1110011 :=
  (extract_last _ _)

/-! ### Offsets are even -/

theorem immBOf_even (w : Word) : (immBOf w).getLsbD 0 = false := by
  have h := congrArg (fun x => x.getLsbD 0)
    (extract_last (w.extractLsb' 31 1 ++ w.extractLsb' 7 1 ++ w.extractLsb' 25 6 ++ w.extractLsb' 8 4) 0#1)
  simp only [BitVec.getLsbD_extractLsb'] at h
  simpa [immBOf] using h

theorem immJOf_even (w : Word) : (immJOf w).getLsbD 0 = false := by
  have h := congrArg (fun x => x.getLsbD 0)
    (extract_last (w.extractLsb' 31 1 ++ w.extractLsb' 12 8 ++ w.extractLsb' 20 1 ++ w.extractLsb' 21 10) 0#1)
  simp only [BitVec.getLsbD_extractLsb'] at h
  simpa [immJOf] using h

/-! ### A word from its fields -/

theorem rType_fields (w : Word) : rType (funct7Of w) (rs2Of w) (rs1Of w) (funct3Of w) (rdOf w) (opcodeOf w) = w := by
  unfold rType funct7Of rs2Of rs1Of funct3Of rdOf opcodeOf
  simp only [regField_toFin]
  rw [extract_glue w 20 7 5, extract_glue w 15 _ 5, extract_glue w 12 _ 3, extract_glue w 7 _ 5, extract_glue w 0 _ 7]
  exact extract_all w

theorem shiftType_fields (w : Word) :
    shiftType (funct7Of w) (shamtOf w) (rs1Of w) (funct3Of w) (rdOf w) (opcodeOf w) = w :=
  rType_fields w

theorem iType_fields (w : Word) : iType (immIOf w) (rs1Of w) (funct3Of w) (rdOf w) (opcodeOf w) = w := by
  unfold iType immIOf rs1Of funct3Of rdOf opcodeOf
  simp only [regField_toFin]
  rw [extract_glue w 15 12 5, extract_glue w 12 _ 3, extract_glue w 7 _ 5, extract_glue w 0 _ 7]
  exact extract_all w

theorem fence_fields (w : Word) : fmOf w ++ predOf w ++ succOf w = immIOf w := by
  unfold fmOf predOf succOf immIOf
  rw [extract_glue w 24 4 4, extract_glue w 20 _ 4]

theorem sType_fields (w : Word) : sType (immSOf w) (rs2Of w) (rs1Of w) (funct3Of w) (opcodeOf w) = w := by
  have h1 : (immSOf w).extractLsb' 5 7 = w.extractLsb' 25 7 := (extract_skip _ _ 0 7).trans (extract_all _)
  have h2 : (immSOf w).extractLsb' 0 5 = w.extractLsb' 7 5 := extract_last _ _
  unfold sType
  rw [h1, h2]
  exact rType_fields w

theorem bType_fields (w : Word) : bType (immBOf w) (rs2Of w) (rs1Of w) (funct3Of w) (opcodeOf w) = w := by
  have h1 : (immBOf w).extractLsb' 12 1 = w.extractLsb' 31 1 :=
    (extract_skip _ _ 11 1).trans ((extract_skip _ _ 7 1).trans ((extract_skip _ _ 1 1).trans
      ((extract_skip _ _ 0 1).trans (extract_all _))))
  have h2 : (immBOf w).extractLsb' 5 6 = w.extractLsb' 25 6 :=
    (extract_skip _ _ 4 6).trans ((extract_skip _ _ 0 6).trans (extract_last _ _))
  have h3 : (immBOf w).extractLsb' 1 4 = w.extractLsb' 8 4 := (extract_skip _ _ 0 4).trans (extract_last _ _)
  have h4 : (immBOf w).extractLsb' 11 1 = w.extractLsb' 7 1 :=
    (extract_skip _ _ 10 1).trans ((extract_skip _ _ 6 1).trans ((extract_skip _ _ 0 1).trans (extract_last _ _)))
  unfold bType rs2Of rs1Of funct3Of opcodeOf
  rw [h1, h2, h3, h4]
  simp only [regField_toFin]
  rw [extract_glue w 25 1 6, extract_glue w 20 _ 5, extract_glue w 15 _ 5, extract_glue w 12 _ 3, extract_glue w 8 _ 4,
    extract_glue w 7 _ 1, extract_glue w 0 _ 7]
  exact extract_all w

theorem uType_fields (w : Word) : uType (immUOf w) (rdOf w) (opcodeOf w) = w := by
  unfold uType immUOf rdOf opcodeOf
  simp only [regField_toFin]
  rw [extract_glue w 7 20 5, extract_glue w 0 _ 7]
  exact extract_all w

theorem jType_fields (w : Word) : jType (immJOf w) (rdOf w) (opcodeOf w) = w := by
  have h1 : (immJOf w).extractLsb' 20 1 = w.extractLsb' 31 1 :=
    (extract_skip _ _ 19 1).trans ((extract_skip _ _ 9 1).trans ((extract_skip _ _ 8 1).trans
      ((extract_skip _ _ 0 1).trans (extract_all _))))
  have h2 : (immJOf w).extractLsb' 1 10 = w.extractLsb' 21 10 := (extract_skip _ _ 0 10).trans (extract_last _ _)
  have h3 : (immJOf w).extractLsb' 11 1 = w.extractLsb' 20 1 :=
    (extract_skip _ _ 10 1).trans ((extract_skip _ _ 0 1).trans (extract_last _ _))
  have h4 : (immJOf w).extractLsb' 12 8 = w.extractLsb' 12 8 :=
    (extract_skip _ _ 11 8).trans ((extract_skip _ _ 1 8).trans ((extract_skip _ _ 0 8).trans (extract_last _ _)))
  unfold jType rdOf opcodeOf
  rw [h1, h2, h3, h4]
  simp only [regField_toFin]
  rw [extract_glue w 21 1 10, extract_glue w 20 _ 1, extract_glue w 12 _ 8, extract_glue w 7 _ 5, extract_glue w 0 _ 7]
  exact extract_all w

theorem ofBool_getLsbD (w : Word) (i : Nat) : BitVec.ofBool (w.getLsbD i) = w.extractLsb' i 1 := by
  ext j hj
  obtain rfl : j = 0 := by omega
  simp

theorem atomicType_fields (w : Word) (h3 : funct3Of w = 0b010#3) (ho : opcodeOf w = 0b0101111#7) :
    atomicType (funct5Of w) (aqOf w) (rlOf w) (rs2Of w) (rs1Of w) (rdOf w) = w := by
  unfold atomicType
  rw [← ho, ← h3]
  unfold funct5Of aqOf rlOf rs2Of rs1Of funct3Of rdOf opcodeOf
  simp only [regField_toFin, ofBool_getLsbD]
  rw [extract_glue w 26 5 1, extract_glue w 25 _ 1, extract_glue w 20 _ 5, extract_glue w 15 _ 5, extract_glue w 12 _ 3,
    extract_glue w 7 _ 5, extract_glue w 0 _ 7]
  exact extract_all w

theorem csrType_fields (w : Word) (ho : opcodeOf w = 0b1110011#7) : csrType (csrOf w) (rs1Of w) (funct3Of w) (rdOf w) = w := by
  unfold csrType
  rw [← ho]
  exact iType_fields w

theorem csrImmType_fields (w : Word) (ho : opcodeOf w = 0b1110011#7) :
    csrImmType (csrOf w) (uimmOf w) (funct3Of w) (rdOf w) = w :=
  csrType_fields w ho

/-! ### The low two bits -/

/-- The low two bits of a word are those of its opcode (R70). -/
theorem low_two_bits (w : Word) : w.extractLsb' 0 2 = (opcodeOf w).extractLsb' 0 2 := by
  ext i hi
  simp only [opcodeOf, BitVec.getElem_extractLsb', BitVec.getLsbD_extractLsb']
  simp [show i < 7 by omega]

/-- A word of a major opcode whose low two bits are `11` is decoded by its opcode alone (R79, R81). -/
theorem low_two_of_opcode {w : Word} {op : BitVec 7} (h : opcodeOf w = op) (h2 : op.extractLsb' 0 2 = 0b11) :
    w.extractLsb' 0 2 = 0b11 := by
  rw [low_two_bits, h, h2]

end Sys2Proof
end

