-- ==== Sys2Proof/Laws/State.lean ====
section
/-! SUPPORT. One lemma per field per update of the state, true by `rfl`, so that no later proof unfolds a record update. -/

namespace Sys2Proof.Machine

/-! ### `x[r] <- v` -/

@[simp] theorem State.setX_cfg (s : State) (r : Reg) (v : Word) : (s.setX r v).cfg = s.cfg := rfl
@[simp] theorem State.setX_pc (s : State) (r : Reg) (v : Word) : (s.setX r v).pc = s.pc := rfl
@[simp] theorem State.setX_priv (s : State) (r : Reg) (v : Word) : (s.setX r v).priv = s.priv := rfl
@[simp] theorem State.setX_statusMIE (s : State) (r : Reg) (v : Word) : (s.setX r v).statusMIE = s.statusMIE := rfl
@[simp] theorem State.setX_statusMPIE (s : State) (r : Reg) (v : Word) : (s.setX r v).statusMPIE = s.statusMPIE := rfl
@[simp] theorem State.setX_statusMPP (s : State) (r : Reg) (v : Word) : (s.setX r v).statusMPP = s.statusMPP := rfl
@[simp] theorem State.setX_mie (s : State) (r : Reg) (v : Word) : (s.setX r v).mie = s.mie := rfl
@[simp] theorem State.setX_mtvec (s : State) (r : Reg) (v : Word) : (s.setX r v).mtvec = s.mtvec := rfl
@[simp] theorem State.setX_mscratch (s : State) (r : Reg) (v : Word) : (s.setX r v).mscratch = s.mscratch := rfl
@[simp] theorem State.setX_mepc (s : State) (r : Reg) (v : Word) : (s.setX r v).mepc = s.mepc := rfl
@[simp] theorem State.setX_mcause (s : State) (r : Reg) (v : Word) : (s.setX r v).mcause = s.mcause := rfl
@[simp] theorem State.setX_mtval (s : State) (r : Reg) (v : Word) : (s.setX r v).mtval = s.mtval := rfl
@[simp] theorem State.setX_cycle (s : State) (r : Reg) (v : Word) : (s.setX r v).cycle = s.cycle := rfl
@[simp] theorem State.setX_timermatch (s : State) (r : Reg) (v : Word) : (s.setX r v).timermatch = s.timermatch := rfl
@[simp] theorem State.setX_resvValid (s : State) (r : Reg) (v : Word) : (s.setX r v).resvValid = s.resvValid := rfl
@[simp] theorem State.setX_resvAddr (s : State) (r : Reg) (v : Word) : (s.setX r v).resvAddr = s.resvAddr := rfl
@[simp] theorem State.setX_mem (s : State) (r : Reg) (v : Word) : (s.setX r v).mem = s.mem := rfl
@[simp] theorem State.setX_halted (s : State) (r : Reg) (v : Word) : (s.setX r v).halted = s.halted := rfl
@[simp] theorem State.setX_eofLatch (s : State) (r : Reg) (v : Word) : (s.setX r v).eofLatch = s.eofLatch := rfl
@[simp] theorem State.setX_kbd (s : State) (r : Reg) (v : Word) : (s.setX r v).kbd = s.kbd := rfl
@[simp] theorem State.setX_inputClosed (s : State) (r : Reg) (v : Word) : (s.setX r v).inputClosed = s.inputClosed := rfl
@[simp] theorem State.setX_console (s : State) (r : Reg) (v : Word) : (s.setX r v).console = s.console := rfl
@[simp] theorem State.setX_result (s : State) (r : Reg) (v : Word) : (s.setX r v).result = s.result := rfl
@[simp] theorem State.setX_stepTaken (s : State) (r : Reg) (v : Word) : (s.setX r v).stepTaken = s.stepTaken := rfl
@[simp] theorem State.setX_hostInputs (s : State) (r : Reg) (v : Word) : (s.setX r v).hostInputs = s.hostInputs := rfl

/-! ### The end of a step -/

@[simp] theorem State.commit_cfg (s : State) (c : StepResult) (p : Word) : (s.commit c p).cfg = s.cfg := rfl
@[simp] theorem State.commit_regs (s : State) (c : StepResult) (p : Word) : (s.commit c p).regs = s.regs := rfl
@[simp] theorem State.commit_pc (s : State) (c : StepResult) (p : Word) : (s.commit c p).pc = p := rfl
@[simp] theorem State.commit_priv (s : State) (c : StepResult) (p : Word) : (s.commit c p).priv = s.priv := rfl
@[simp] theorem State.commit_statusMIE (s : State) (c : StepResult) (p : Word) : (s.commit c p).statusMIE = s.statusMIE := rfl
@[simp] theorem State.commit_statusMPIE (s : State) (c : StepResult) (p : Word) : (s.commit c p).statusMPIE = s.statusMPIE := rfl
@[simp] theorem State.commit_statusMPP (s : State) (c : StepResult) (p : Word) : (s.commit c p).statusMPP = s.statusMPP := rfl
@[simp] theorem State.commit_mie (s : State) (c : StepResult) (p : Word) : (s.commit c p).mie = s.mie := rfl
@[simp] theorem State.commit_mtvec (s : State) (c : StepResult) (p : Word) : (s.commit c p).mtvec = s.mtvec := rfl
@[simp] theorem State.commit_mscratch (s : State) (c : StepResult) (p : Word) : (s.commit c p).mscratch = s.mscratch := rfl
@[simp] theorem State.commit_mepc (s : State) (c : StepResult) (p : Word) : (s.commit c p).mepc = s.mepc := rfl
@[simp] theorem State.commit_mcause (s : State) (c : StepResult) (p : Word) : (s.commit c p).mcause = s.mcause := rfl
@[simp] theorem State.commit_mtval (s : State) (c : StepResult) (p : Word) : (s.commit c p).mtval = s.mtval := rfl
@[simp] theorem State.commit_cycle (s : State) (c : StepResult) (p : Word) : (s.commit c p).cycle = s.cycle + 1 := rfl
@[simp] theorem State.commit_timermatch (s : State) (c : StepResult) (p : Word) : (s.commit c p).timermatch = s.timermatch := rfl
@[simp] theorem State.commit_resvValid (s : State) (c : StepResult) (p : Word) : (s.commit c p).resvValid = s.resvValid := rfl
@[simp] theorem State.commit_resvAddr (s : State) (c : StepResult) (p : Word) : (s.commit c p).resvAddr = s.resvAddr := rfl
@[simp] theorem State.commit_mem (s : State) (c : StepResult) (p : Word) : (s.commit c p).mem = s.mem := rfl
@[simp] theorem State.commit_halted (s : State) (c : StepResult) (p : Word) : (s.commit c p).halted = (s.halted || c.endsRun) := rfl
@[simp] theorem State.commit_eofLatch (s : State) (c : StepResult) (p : Word) : (s.commit c p).eofLatch = s.eofLatch := rfl
@[simp] theorem State.commit_kbd (s : State) (c : StepResult) (p : Word) : (s.commit c p).kbd = s.kbd := rfl
@[simp] theorem State.commit_inputClosed (s : State) (c : StepResult) (p : Word) : (s.commit c p).inputClosed = s.inputClosed := rfl
@[simp] theorem State.commit_console (s : State) (c : StepResult) (p : Word) : (s.commit c p).console = s.console := rfl
@[simp] theorem State.commit_result (s : State) (c : StepResult) (p : Word) : (s.commit c p).result = c := rfl
@[simp] theorem State.commit_stepTaken (s : State) (c : StepResult) (p : Word) : (s.commit c p).stepTaken = s.stepTaken := rfl
@[simp] theorem State.commit_hostInputs (s : State) (c : StepResult) (p : Word) : (s.commit c p).hostInputs = s.hostInputs := rfl

/-! ### Retirement -/

@[simp] theorem State.retire_cfg (s : State) : (s.retire).cfg = s.cfg := rfl
@[simp] theorem State.retire_regs (s : State) : (s.retire).regs = s.regs := rfl
@[simp] theorem State.retire_pc (s : State) : (s.retire).pc = s.pc + 4 := rfl
@[simp] theorem State.retire_priv (s : State) : (s.retire).priv = s.priv := rfl
@[simp] theorem State.retire_statusMIE (s : State) : (s.retire).statusMIE = s.statusMIE := rfl
@[simp] theorem State.retire_statusMPIE (s : State) : (s.retire).statusMPIE = s.statusMPIE := rfl
@[simp] theorem State.retire_statusMPP (s : State) : (s.retire).statusMPP = s.statusMPP := rfl
@[simp] theorem State.retire_mie (s : State) : (s.retire).mie = s.mie := rfl
@[simp] theorem State.retire_mtvec (s : State) : (s.retire).mtvec = s.mtvec := rfl
@[simp] theorem State.retire_mscratch (s : State) : (s.retire).mscratch = s.mscratch := rfl
@[simp] theorem State.retire_mepc (s : State) : (s.retire).mepc = s.mepc := rfl
@[simp] theorem State.retire_mcause (s : State) : (s.retire).mcause = s.mcause := rfl
@[simp] theorem State.retire_mtval (s : State) : (s.retire).mtval = s.mtval := rfl
@[simp] theorem State.retire_cycle (s : State) : (s.retire).cycle = s.cycle + 1 := rfl
@[simp] theorem State.retire_timermatch (s : State) : (s.retire).timermatch = s.timermatch := rfl
@[simp] theorem State.retire_resvValid (s : State) : (s.retire).resvValid = s.resvValid := rfl
@[simp] theorem State.retire_resvAddr (s : State) : (s.retire).resvAddr = s.resvAddr := rfl
@[simp] theorem State.retire_mem (s : State) : (s.retire).mem = s.mem := rfl
@[simp] theorem State.retire_halted (s : State) : (s.retire).halted = s.halted := Bool.or_false _
@[simp] theorem State.retire_eofLatch (s : State) : (s.retire).eofLatch = s.eofLatch := rfl
@[simp] theorem State.retire_kbd (s : State) : (s.retire).kbd = s.kbd := rfl
@[simp] theorem State.retire_inputClosed (s : State) : (s.retire).inputClosed = s.inputClosed := rfl
@[simp] theorem State.retire_console (s : State) : (s.retire).console = s.console := rfl
@[simp] theorem State.retire_result (s : State) : (s.retire).result = .normal := rfl
@[simp] theorem State.retire_stepTaken (s : State) : (s.retire).stepTaken = s.stepTaken := rfl
@[simp] theorem State.retire_hostInputs (s : State) : (s.retire).hostInputs = s.hostInputs := rfl

/-! ### Trap entry -/

@[simp] theorem State.trapEntry_cfg (s : State) (cause epc tval : Word) : (s.trapEntry cause epc tval).cfg = s.cfg := rfl
@[simp] theorem State.trapEntry_regs (s : State) (cause epc tval : Word) : (s.trapEntry cause epc tval).regs = s.regs := rfl
@[simp] theorem State.trapEntry_pc (s : State) (cause epc tval : Word) : (s.trapEntry cause epc tval).pc = s.trapTarget := rfl
@[simp] theorem State.trapEntry_priv (s : State) (cause epc tval : Word) : (s.trapEntry cause epc tval).priv = 3 := rfl
@[simp] theorem State.trapEntry_statusMIE (s : State) (cause epc tval : Word) : (s.trapEntry cause epc tval).statusMIE = false := rfl
@[simp] theorem State.trapEntry_statusMPIE (s : State) (cause epc tval : Word) : (s.trapEntry cause epc tval).statusMPIE = s.statusMIE := rfl
@[simp] theorem State.trapEntry_statusMPP (s : State) (cause epc tval : Word) : (s.trapEntry cause epc tval).statusMPP = s.priv := rfl
@[simp] theorem State.trapEntry_mie (s : State) (cause epc tval : Word) : (s.trapEntry cause epc tval).mie = s.mie := rfl
@[simp] theorem State.trapEntry_mtvec (s : State) (cause epc tval : Word) : (s.trapEntry cause epc tval).mtvec = s.mtvec := rfl
@[simp] theorem State.trapEntry_mscratch (s : State) (cause epc tval : Word) : (s.trapEntry cause epc tval).mscratch = s.mscratch := rfl
@[simp] theorem State.trapEntry_mepc (s : State) (cause epc tval : Word) : (s.trapEntry cause epc tval).mepc = epc := rfl
@[simp] theorem State.trapEntry_mcause (s : State) (cause epc tval : Word) : (s.trapEntry cause epc tval).mcause = cause := rfl
@[simp] theorem State.trapEntry_mtval (s : State) (cause epc tval : Word) : (s.trapEntry cause epc tval).mtval = tval := rfl
@[simp] theorem State.trapEntry_cycle (s : State) (cause epc tval : Word) : (s.trapEntry cause epc tval).cycle = s.cycle := rfl
@[simp] theorem State.trapEntry_timermatch (s : State) (cause epc tval : Word) : (s.trapEntry cause epc tval).timermatch = s.timermatch := rfl
@[simp] theorem State.trapEntry_resvValid (s : State) (cause epc tval : Word) : (s.trapEntry cause epc tval).resvValid = s.resvValid := rfl
@[simp] theorem State.trapEntry_resvAddr (s : State) (cause epc tval : Word) : (s.trapEntry cause epc tval).resvAddr = s.resvAddr := rfl
@[simp] theorem State.trapEntry_mem (s : State) (cause epc tval : Word) : (s.trapEntry cause epc tval).mem = s.mem := rfl
@[simp] theorem State.trapEntry_halted (s : State) (cause epc tval : Word) : (s.trapEntry cause epc tval).halted = s.halted := rfl
@[simp] theorem State.trapEntry_eofLatch (s : State) (cause epc tval : Word) : (s.trapEntry cause epc tval).eofLatch = s.eofLatch := rfl
@[simp] theorem State.trapEntry_kbd (s : State) (cause epc tval : Word) : (s.trapEntry cause epc tval).kbd = s.kbd := rfl
@[simp] theorem State.trapEntry_inputClosed (s : State) (cause epc tval : Word) : (s.trapEntry cause epc tval).inputClosed = s.inputClosed := rfl
@[simp] theorem State.trapEntry_console (s : State) (cause epc tval : Word) : (s.trapEntry cause epc tval).console = s.console := rfl
@[simp] theorem State.trapEntry_result (s : State) (cause epc tval : Word) : (s.trapEntry cause epc tval).result = s.result := rfl
@[simp] theorem State.trapEntry_stepTaken (s : State) (cause epc tval : Word) : (s.trapEntry cause epc tval).stepTaken = s.stepTaken := rfl
@[simp] theorem State.trapEntry_hostInputs (s : State) (cause epc tval : Word) : (s.trapEntry cause epc tval).hostInputs = s.hostInputs := rfl

/-! ### A raised exception -/

@[simp] theorem State.raise_cfg (s : State) (e : Raised) : (s.raise e).cfg = s.cfg := rfl
@[simp] theorem State.raise_regs (s : State) (e : Raised) : (s.raise e).regs = s.regs := rfl
@[simp] theorem State.raise_pc (s : State) (e : Raised) : (s.raise e).pc = s.trapTarget := rfl
@[simp] theorem State.raise_priv (s : State) (e : Raised) : (s.raise e).priv = 3 := rfl
@[simp] theorem State.raise_statusMIE (s : State) (e : Raised) : (s.raise e).statusMIE = false := rfl
@[simp] theorem State.raise_statusMPIE (s : State) (e : Raised) : (s.raise e).statusMPIE = s.statusMIE := rfl
@[simp] theorem State.raise_statusMPP (s : State) (e : Raised) : (s.raise e).statusMPP = s.priv := rfl
@[simp] theorem State.raise_mie (s : State) (e : Raised) : (s.raise e).mie = s.mie := rfl
@[simp] theorem State.raise_mtvec (s : State) (e : Raised) : (s.raise e).mtvec = s.mtvec := rfl
@[simp] theorem State.raise_mscratch (s : State) (e : Raised) : (s.raise e).mscratch = s.mscratch := rfl
@[simp] theorem State.raise_mepc (s : State) (e : Raised) : (s.raise e).mepc = s.pc := rfl
@[simp] theorem State.raise_mcause (s : State) (e : Raised) : (s.raise e).mcause = causeOf e.exc := rfl
@[simp] theorem State.raise_mtval (s : State) (e : Raised) : (s.raise e).mtval = e.info := rfl
@[simp] theorem State.raise_cycle (s : State) (e : Raised) : (s.raise e).cycle = s.cycle + 1 := rfl
@[simp] theorem State.raise_timermatch (s : State) (e : Raised) : (s.raise e).timermatch = s.timermatch := rfl
@[simp] theorem State.raise_resvValid (s : State) (e : Raised) : (s.raise e).resvValid = s.resvValid := rfl
@[simp] theorem State.raise_resvAddr (s : State) (e : Raised) : (s.raise e).resvAddr = s.resvAddr := rfl
@[simp] theorem State.raise_mem (s : State) (e : Raised) : (s.raise e).mem = s.mem := rfl
@[simp] theorem State.raise_halted (s : State) (e : Raised) : (s.raise e).halted = s.halted := rfl
@[simp] theorem State.raise_eofLatch (s : State) (e : Raised) : (s.raise e).eofLatch = s.eofLatch := rfl
@[simp] theorem State.raise_kbd (s : State) (e : Raised) : (s.raise e).kbd = s.kbd := rfl
@[simp] theorem State.raise_inputClosed (s : State) (e : Raised) : (s.raise e).inputClosed = s.inputClosed := rfl
@[simp] theorem State.raise_console (s : State) (e : Raised) : (s.raise e).console = s.console := rfl
@[simp] theorem State.raise_result (s : State) (e : Raised) : (s.raise e).result = .trapped e.exc := rfl
@[simp] theorem State.raise_stepTaken (s : State) (e : Raised) : (s.raise e).stepTaken = s.stepTaken := rfl
@[simp] theorem State.raise_hostInputs (s : State) (e : Raised) : (s.raise e).hostInputs = s.hostInputs := rfl

/-! ### The timer interrupt -/

@[simp] theorem State.takeTimerInterrupt_cfg (s : State) : (s.takeTimerInterrupt).cfg = s.cfg := rfl
@[simp] theorem State.takeTimerInterrupt_regs (s : State) : (s.takeTimerInterrupt).regs = s.regs := rfl
@[simp] theorem State.takeTimerInterrupt_pc (s : State) : (s.takeTimerInterrupt).pc = s.trapTarget := rfl
@[simp] theorem State.takeTimerInterrupt_priv (s : State) : (s.takeTimerInterrupt).priv = 3 := rfl
@[simp] theorem State.takeTimerInterrupt_statusMIE (s : State) : (s.takeTimerInterrupt).statusMIE = false := rfl
@[simp] theorem State.takeTimerInterrupt_statusMPIE (s : State) : (s.takeTimerInterrupt).statusMPIE = s.statusMIE := rfl
@[simp] theorem State.takeTimerInterrupt_statusMPP (s : State) : (s.takeTimerInterrupt).statusMPP = s.priv := rfl
@[simp] theorem State.takeTimerInterrupt_mie (s : State) : (s.takeTimerInterrupt).mie = s.mie := rfl
@[simp] theorem State.takeTimerInterrupt_mtvec (s : State) : (s.takeTimerInterrupt).mtvec = s.mtvec := rfl
@[simp] theorem State.takeTimerInterrupt_mscratch (s : State) : (s.takeTimerInterrupt).mscratch = s.mscratch := rfl
@[simp] theorem State.takeTimerInterrupt_mepc (s : State) : (s.takeTimerInterrupt).mepc = s.pc := rfl
@[simp] theorem State.takeTimerInterrupt_mcause (s : State) : (s.takeTimerInterrupt).mcause = timerCause := rfl
@[simp] theorem State.takeTimerInterrupt_mtval (s : State) : (s.takeTimerInterrupt).mtval = 0 := rfl
@[simp] theorem State.takeTimerInterrupt_cycle (s : State) : (s.takeTimerInterrupt).cycle = s.cycle := rfl
@[simp] theorem State.takeTimerInterrupt_timermatch (s : State) : (s.takeTimerInterrupt).timermatch = s.timermatch := rfl
@[simp] theorem State.takeTimerInterrupt_resvValid (s : State) : (s.takeTimerInterrupt).resvValid = s.resvValid := rfl
@[simp] theorem State.takeTimerInterrupt_resvAddr (s : State) : (s.takeTimerInterrupt).resvAddr = s.resvAddr := rfl
@[simp] theorem State.takeTimerInterrupt_mem (s : State) : (s.takeTimerInterrupt).mem = s.mem := rfl
@[simp] theorem State.takeTimerInterrupt_halted (s : State) : (s.takeTimerInterrupt).halted = s.halted := rfl
@[simp] theorem State.takeTimerInterrupt_eofLatch (s : State) : (s.takeTimerInterrupt).eofLatch = s.eofLatch := rfl
@[simp] theorem State.takeTimerInterrupt_kbd (s : State) : (s.takeTimerInterrupt).kbd = s.kbd := rfl
@[simp] theorem State.takeTimerInterrupt_inputClosed (s : State) : (s.takeTimerInterrupt).inputClosed = s.inputClosed := rfl
@[simp] theorem State.takeTimerInterrupt_console (s : State) : (s.takeTimerInterrupt).console = s.console := rfl
@[simp] theorem State.takeTimerInterrupt_result (s : State) : (s.takeTimerInterrupt).result = .normal := rfl
@[simp] theorem State.takeTimerInterrupt_stepTaken (s : State) : (s.takeTimerInterrupt).stepTaken = s.stepTaken := rfl
@[simp] theorem State.takeTimerInterrupt_hostInputs (s : State) : (s.takeTimerInterrupt).hostInputs = s.hostInputs := rfl

/-! ### The return from a trap -/

@[simp] theorem State.trapReturn_cfg (s : State) : (s.trapReturn).cfg = s.cfg := rfl
@[simp] theorem State.trapReturn_regs (s : State) : (s.trapReturn).regs = s.regs := rfl
@[simp] theorem State.trapReturn_pc (s : State) : (s.trapReturn).pc = s.mepc := rfl
@[simp] theorem State.trapReturn_priv (s : State) : (s.trapReturn).priv = s.statusMPP := rfl
@[simp] theorem State.trapReturn_statusMIE (s : State) : (s.trapReturn).statusMIE = s.statusMPIE := rfl
@[simp] theorem State.trapReturn_statusMPIE (s : State) : (s.trapReturn).statusMPIE = true := rfl
@[simp] theorem State.trapReturn_statusMPP (s : State) : (s.trapReturn).statusMPP = 0 := rfl
@[simp] theorem State.trapReturn_mie (s : State) : (s.trapReturn).mie = s.mie := rfl
@[simp] theorem State.trapReturn_mtvec (s : State) : (s.trapReturn).mtvec = s.mtvec := rfl
@[simp] theorem State.trapReturn_mscratch (s : State) : (s.trapReturn).mscratch = s.mscratch := rfl
@[simp] theorem State.trapReturn_mepc (s : State) : (s.trapReturn).mepc = s.mepc := rfl
@[simp] theorem State.trapReturn_mcause (s : State) : (s.trapReturn).mcause = s.mcause := rfl
@[simp] theorem State.trapReturn_mtval (s : State) : (s.trapReturn).mtval = s.mtval := rfl
@[simp] theorem State.trapReturn_cycle (s : State) : (s.trapReturn).cycle = s.cycle := rfl
@[simp] theorem State.trapReturn_timermatch (s : State) : (s.trapReturn).timermatch = s.timermatch := rfl
@[simp] theorem State.trapReturn_resvValid (s : State) : (s.trapReturn).resvValid = s.resvValid := rfl
@[simp] theorem State.trapReturn_resvAddr (s : State) : (s.trapReturn).resvAddr = s.resvAddr := rfl
@[simp] theorem State.trapReturn_mem (s : State) : (s.trapReturn).mem = s.mem := rfl
@[simp] theorem State.trapReturn_halted (s : State) : (s.trapReturn).halted = s.halted := rfl
@[simp] theorem State.trapReturn_eofLatch (s : State) : (s.trapReturn).eofLatch = s.eofLatch := rfl
@[simp] theorem State.trapReturn_kbd (s : State) : (s.trapReturn).kbd = s.kbd := rfl
@[simp] theorem State.trapReturn_inputClosed (s : State) : (s.trapReturn).inputClosed = s.inputClosed := rfl
@[simp] theorem State.trapReturn_console (s : State) : (s.trapReturn).console = s.console := rfl
@[simp] theorem State.trapReturn_result (s : State) : (s.trapReturn).result = s.result := rfl
@[simp] theorem State.trapReturn_stepTaken (s : State) : (s.trapReturn).stepTaken = s.stepTaken := rfl
@[simp] theorem State.trapReturn_hostInputs (s : State) : (s.trapReturn).hostInputs = s.hostInputs := rfl

/-! ### A store to the image -/

@[simp] theorem State.busStore_cfg (s : State) (off : Nat) (n : Width) (v : Word) : (s.busStore off n v).cfg = s.cfg := rfl
@[simp] theorem State.busStore_regs (s : State) (off : Nat) (n : Width) (v : Word) : (s.busStore off n v).regs = s.regs := rfl
@[simp] theorem State.busStore_pc (s : State) (off : Nat) (n : Width) (v : Word) : (s.busStore off n v).pc = s.pc := rfl
@[simp] theorem State.busStore_priv (s : State) (off : Nat) (n : Width) (v : Word) : (s.busStore off n v).priv = s.priv := rfl
@[simp] theorem State.busStore_statusMIE (s : State) (off : Nat) (n : Width) (v : Word) : (s.busStore off n v).statusMIE = s.statusMIE := rfl
@[simp] theorem State.busStore_statusMPIE (s : State) (off : Nat) (n : Width) (v : Word) : (s.busStore off n v).statusMPIE = s.statusMPIE := rfl
@[simp] theorem State.busStore_statusMPP (s : State) (off : Nat) (n : Width) (v : Word) : (s.busStore off n v).statusMPP = s.statusMPP := rfl
@[simp] theorem State.busStore_mie (s : State) (off : Nat) (n : Width) (v : Word) : (s.busStore off n v).mie = s.mie := rfl
@[simp] theorem State.busStore_mtvec (s : State) (off : Nat) (n : Width) (v : Word) : (s.busStore off n v).mtvec = s.mtvec := rfl
@[simp] theorem State.busStore_mscratch (s : State) (off : Nat) (n : Width) (v : Word) : (s.busStore off n v).mscratch = s.mscratch := rfl
@[simp] theorem State.busStore_mepc (s : State) (off : Nat) (n : Width) (v : Word) : (s.busStore off n v).mepc = s.mepc := rfl
@[simp] theorem State.busStore_mcause (s : State) (off : Nat) (n : Width) (v : Word) : (s.busStore off n v).mcause = s.mcause := rfl
@[simp] theorem State.busStore_mtval (s : State) (off : Nat) (n : Width) (v : Word) : (s.busStore off n v).mtval = s.mtval := rfl
@[simp] theorem State.busStore_cycle (s : State) (off : Nat) (n : Width) (v : Word) : (s.busStore off n v).cycle = s.cycle := rfl
@[simp] theorem State.busStore_timermatch (s : State) (off : Nat) (n : Width) (v : Word) : (s.busStore off n v).timermatch = s.timermatch := rfl
@[simp] theorem State.busStore_resvValid (s : State) (off : Nat) (n : Width) (v : Word) : (s.busStore off n v).resvValid = s.resvValid := rfl
@[simp] theorem State.busStore_resvAddr (s : State) (off : Nat) (n : Width) (v : Word) : (s.busStore off n v).resvAddr = s.resvAddr := rfl
@[simp] theorem State.busStore_halted (s : State) (off : Nat) (n : Width) (v : Word) : (s.busStore off n v).halted = s.halted := rfl
@[simp] theorem State.busStore_eofLatch (s : State) (off : Nat) (n : Width) (v : Word) : (s.busStore off n v).eofLatch = s.eofLatch := rfl
@[simp] theorem State.busStore_kbd (s : State) (off : Nat) (n : Width) (v : Word) : (s.busStore off n v).kbd = s.kbd := rfl
@[simp] theorem State.busStore_inputClosed (s : State) (off : Nat) (n : Width) (v : Word) : (s.busStore off n v).inputClosed = s.inputClosed := rfl
@[simp] theorem State.busStore_console (s : State) (off : Nat) (n : Width) (v : Word) : (s.busStore off n v).console = s.console := rfl
@[simp] theorem State.busStore_result (s : State) (off : Nat) (n : Width) (v : Word) : (s.busStore off n v).result = s.result := rfl
@[simp] theorem State.busStore_stepTaken (s : State) (off : Nat) (n : Width) (v : Word) : (s.busStore off n v).stepTaken = s.stepTaken := rfl
@[simp] theorem State.busStore_hostInputs (s : State) (off : Nat) (n : Width) (v : Word) : (s.busStore off n v).hostInputs = s.hostInputs := rfl

/-! ### The reservation set -/

@[simp] theorem State.reserve_cfg (s : State) (addr : Word) : (s.reserve addr).cfg = s.cfg := rfl
@[simp] theorem State.reserve_regs (s : State) (addr : Word) : (s.reserve addr).regs = s.regs := rfl
@[simp] theorem State.reserve_pc (s : State) (addr : Word) : (s.reserve addr).pc = s.pc := rfl
@[simp] theorem State.reserve_priv (s : State) (addr : Word) : (s.reserve addr).priv = s.priv := rfl
@[simp] theorem State.reserve_statusMIE (s : State) (addr : Word) : (s.reserve addr).statusMIE = s.statusMIE := rfl
@[simp] theorem State.reserve_statusMPIE (s : State) (addr : Word) : (s.reserve addr).statusMPIE = s.statusMPIE := rfl
@[simp] theorem State.reserve_statusMPP (s : State) (addr : Word) : (s.reserve addr).statusMPP = s.statusMPP := rfl
@[simp] theorem State.reserve_mie (s : State) (addr : Word) : (s.reserve addr).mie = s.mie := rfl
@[simp] theorem State.reserve_mtvec (s : State) (addr : Word) : (s.reserve addr).mtvec = s.mtvec := rfl
@[simp] theorem State.reserve_mscratch (s : State) (addr : Word) : (s.reserve addr).mscratch = s.mscratch := rfl
@[simp] theorem State.reserve_mepc (s : State) (addr : Word) : (s.reserve addr).mepc = s.mepc := rfl
@[simp] theorem State.reserve_mcause (s : State) (addr : Word) : (s.reserve addr).mcause = s.mcause := rfl
@[simp] theorem State.reserve_mtval (s : State) (addr : Word) : (s.reserve addr).mtval = s.mtval := rfl
@[simp] theorem State.reserve_cycle (s : State) (addr : Word) : (s.reserve addr).cycle = s.cycle := rfl
@[simp] theorem State.reserve_timermatch (s : State) (addr : Word) : (s.reserve addr).timermatch = s.timermatch := rfl
@[simp] theorem State.reserve_resvValid (s : State) (addr : Word) : (s.reserve addr).resvValid = true := rfl
@[simp] theorem State.reserve_resvAddr (s : State) (addr : Word) : (s.reserve addr).resvAddr = addr := rfl
@[simp] theorem State.reserve_mem (s : State) (addr : Word) : (s.reserve addr).mem = s.mem := rfl
@[simp] theorem State.reserve_halted (s : State) (addr : Word) : (s.reserve addr).halted = s.halted := rfl
@[simp] theorem State.reserve_eofLatch (s : State) (addr : Word) : (s.reserve addr).eofLatch = s.eofLatch := rfl
@[simp] theorem State.reserve_kbd (s : State) (addr : Word) : (s.reserve addr).kbd = s.kbd := rfl
@[simp] theorem State.reserve_inputClosed (s : State) (addr : Word) : (s.reserve addr).inputClosed = s.inputClosed := rfl
@[simp] theorem State.reserve_console (s : State) (addr : Word) : (s.reserve addr).console = s.console := rfl
@[simp] theorem State.reserve_result (s : State) (addr : Word) : (s.reserve addr).result = s.result := rfl
@[simp] theorem State.reserve_stepTaken (s : State) (addr : Word) : (s.reserve addr).stepTaken = s.stepTaken := rfl
@[simp] theorem State.reserve_hostInputs (s : State) (addr : Word) : (s.reserve addr).hostInputs = s.hostInputs := rfl

/-! ### The reservation cleared -/

@[simp] theorem State.clearReservation_cfg (s : State) : (s.clearReservation).cfg = s.cfg := rfl
@[simp] theorem State.clearReservation_regs (s : State) : (s.clearReservation).regs = s.regs := rfl
@[simp] theorem State.clearReservation_pc (s : State) : (s.clearReservation).pc = s.pc := rfl
@[simp] theorem State.clearReservation_priv (s : State) : (s.clearReservation).priv = s.priv := rfl
@[simp] theorem State.clearReservation_statusMIE (s : State) : (s.clearReservation).statusMIE = s.statusMIE := rfl
@[simp] theorem State.clearReservation_statusMPIE (s : State) : (s.clearReservation).statusMPIE = s.statusMPIE := rfl
@[simp] theorem State.clearReservation_statusMPP (s : State) : (s.clearReservation).statusMPP = s.statusMPP := rfl
@[simp] theorem State.clearReservation_mie (s : State) : (s.clearReservation).mie = s.mie := rfl
@[simp] theorem State.clearReservation_mtvec (s : State) : (s.clearReservation).mtvec = s.mtvec := rfl
@[simp] theorem State.clearReservation_mscratch (s : State) : (s.clearReservation).mscratch = s.mscratch := rfl
@[simp] theorem State.clearReservation_mepc (s : State) : (s.clearReservation).mepc = s.mepc := rfl
@[simp] theorem State.clearReservation_mcause (s : State) : (s.clearReservation).mcause = s.mcause := rfl
@[simp] theorem State.clearReservation_mtval (s : State) : (s.clearReservation).mtval = s.mtval := rfl
@[simp] theorem State.clearReservation_cycle (s : State) : (s.clearReservation).cycle = s.cycle := rfl
@[simp] theorem State.clearReservation_timermatch (s : State) : (s.clearReservation).timermatch = s.timermatch := rfl
@[simp] theorem State.clearReservation_resvValid (s : State) : (s.clearReservation).resvValid = false := rfl
@[simp] theorem State.clearReservation_resvAddr (s : State) : (s.clearReservation).resvAddr = s.resvAddr := rfl
@[simp] theorem State.clearReservation_mem (s : State) : (s.clearReservation).mem = s.mem := rfl
@[simp] theorem State.clearReservation_halted (s : State) : (s.clearReservation).halted = s.halted := rfl
@[simp] theorem State.clearReservation_eofLatch (s : State) : (s.clearReservation).eofLatch = s.eofLatch := rfl
@[simp] theorem State.clearReservation_kbd (s : State) : (s.clearReservation).kbd = s.kbd := rfl
@[simp] theorem State.clearReservation_inputClosed (s : State) : (s.clearReservation).inputClosed = s.inputClosed := rfl
@[simp] theorem State.clearReservation_console (s : State) : (s.clearReservation).console = s.console := rfl
@[simp] theorem State.clearReservation_result (s : State) : (s.clearReservation).result = s.result := rfl
@[simp] theorem State.clearReservation_stepTaken (s : State) : (s.clearReservation).stepTaken = s.stepTaken := rfl
@[simp] theorem State.clearReservation_hostInputs (s : State) : (s.clearReservation).hostInputs = s.hostInputs := rfl

/-! ### The poll of the keyboard -/

@[simp] theorem State.pollKeyboard_cfg (s : State) : (s.pollKeyboard).cfg = s.cfg := rfl
@[simp] theorem State.pollKeyboard_regs (s : State) : (s.pollKeyboard).regs = s.regs := rfl
@[simp] theorem State.pollKeyboard_pc (s : State) : (s.pollKeyboard).pc = s.pc := rfl
@[simp] theorem State.pollKeyboard_priv (s : State) : (s.pollKeyboard).priv = s.priv := rfl
@[simp] theorem State.pollKeyboard_statusMIE (s : State) : (s.pollKeyboard).statusMIE = s.statusMIE := rfl
@[simp] theorem State.pollKeyboard_statusMPIE (s : State) : (s.pollKeyboard).statusMPIE = s.statusMPIE := rfl
@[simp] theorem State.pollKeyboard_statusMPP (s : State) : (s.pollKeyboard).statusMPP = s.statusMPP := rfl
@[simp] theorem State.pollKeyboard_mie (s : State) : (s.pollKeyboard).mie = s.mie := rfl
@[simp] theorem State.pollKeyboard_mtvec (s : State) : (s.pollKeyboard).mtvec = s.mtvec := rfl
@[simp] theorem State.pollKeyboard_mscratch (s : State) : (s.pollKeyboard).mscratch = s.mscratch := rfl
@[simp] theorem State.pollKeyboard_mepc (s : State) : (s.pollKeyboard).mepc = s.mepc := rfl
@[simp] theorem State.pollKeyboard_mcause (s : State) : (s.pollKeyboard).mcause = s.mcause := rfl
@[simp] theorem State.pollKeyboard_mtval (s : State) : (s.pollKeyboard).mtval = s.mtval := rfl
@[simp] theorem State.pollKeyboard_cycle (s : State) : (s.pollKeyboard).cycle = s.cycle := rfl
@[simp] theorem State.pollKeyboard_timermatch (s : State) : (s.pollKeyboard).timermatch = s.timermatch := rfl
@[simp] theorem State.pollKeyboard_resvValid (s : State) : (s.pollKeyboard).resvValid = s.resvValid := rfl
@[simp] theorem State.pollKeyboard_resvAddr (s : State) : (s.pollKeyboard).resvAddr = s.resvAddr := rfl
@[simp] theorem State.pollKeyboard_mem (s : State) : (s.pollKeyboard).mem = s.mem := rfl
@[simp] theorem State.pollKeyboard_halted (s : State) : (s.pollKeyboard).halted = s.halted := rfl
@[simp] theorem State.pollKeyboard_eofLatch (s : State) : (s.pollKeyboard).eofLatch = (s.eofLatch || s.inputClosed) := rfl
@[simp] theorem State.pollKeyboard_kbd (s : State) : (s.pollKeyboard).kbd = s.kbd := rfl
@[simp] theorem State.pollKeyboard_inputClosed (s : State) : (s.pollKeyboard).inputClosed = s.inputClosed := rfl
@[simp] theorem State.pollKeyboard_console (s : State) : (s.pollKeyboard).console = s.console := rfl
@[simp] theorem State.pollKeyboard_result (s : State) : (s.pollKeyboard).result = s.result := rfl
@[simp] theorem State.pollKeyboard_stepTaken (s : State) : (s.pollKeyboard).stepTaken = s.stepTaken := rfl
@[simp] theorem State.pollKeyboard_hostInputs (s : State) : (s.pollKeyboard).hostInputs = s.hostInputs := rfl

/-! ### A key taken -/

@[simp] theorem State.takeKey_cfg (s : State) : (s.takeKey).cfg = s.cfg := rfl
@[simp] theorem State.takeKey_regs (s : State) : (s.takeKey).regs = s.regs := rfl
@[simp] theorem State.takeKey_pc (s : State) : (s.takeKey).pc = s.pc := rfl
@[simp] theorem State.takeKey_priv (s : State) : (s.takeKey).priv = s.priv := rfl
@[simp] theorem State.takeKey_statusMIE (s : State) : (s.takeKey).statusMIE = s.statusMIE := rfl
@[simp] theorem State.takeKey_statusMPIE (s : State) : (s.takeKey).statusMPIE = s.statusMPIE := rfl
@[simp] theorem State.takeKey_statusMPP (s : State) : (s.takeKey).statusMPP = s.statusMPP := rfl
@[simp] theorem State.takeKey_mie (s : State) : (s.takeKey).mie = s.mie := rfl
@[simp] theorem State.takeKey_mtvec (s : State) : (s.takeKey).mtvec = s.mtvec := rfl
@[simp] theorem State.takeKey_mscratch (s : State) : (s.takeKey).mscratch = s.mscratch := rfl
@[simp] theorem State.takeKey_mepc (s : State) : (s.takeKey).mepc = s.mepc := rfl
@[simp] theorem State.takeKey_mcause (s : State) : (s.takeKey).mcause = s.mcause := rfl
@[simp] theorem State.takeKey_mtval (s : State) : (s.takeKey).mtval = s.mtval := rfl
@[simp] theorem State.takeKey_cycle (s : State) : (s.takeKey).cycle = s.cycle := rfl
@[simp] theorem State.takeKey_timermatch (s : State) : (s.takeKey).timermatch = s.timermatch := rfl
@[simp] theorem State.takeKey_resvValid (s : State) : (s.takeKey).resvValid = s.resvValid := rfl
@[simp] theorem State.takeKey_resvAddr (s : State) : (s.takeKey).resvAddr = s.resvAddr := rfl
@[simp] theorem State.takeKey_mem (s : State) : (s.takeKey).mem = s.mem := rfl
@[simp] theorem State.takeKey_halted (s : State) : (s.takeKey).halted = s.halted := rfl
@[simp] theorem State.takeKey_eofLatch (s : State) : (s.takeKey).eofLatch = s.eofLatch := rfl
@[simp] theorem State.takeKey_kbd (s : State) : (s.takeKey).kbd = s.kbd.tail := rfl
@[simp] theorem State.takeKey_inputClosed (s : State) : (s.takeKey).inputClosed = s.inputClosed := rfl
@[simp] theorem State.takeKey_console (s : State) : (s.takeKey).console = s.console := rfl
@[simp] theorem State.takeKey_result (s : State) : (s.takeKey).result = s.result := rfl
@[simp] theorem State.takeKey_stepTaken (s : State) : (s.takeKey).stepTaken = s.stepTaken := rfl
@[simp] theorem State.takeKey_hostInputs (s : State) : (s.takeKey).hostInputs = s.hostInputs := rfl

/-! ### A console event -/

@[simp] theorem State.emit_cfg (s : State) (e : ConsoleEvent) : (s.emit e).cfg = s.cfg := rfl
@[simp] theorem State.emit_regs (s : State) (e : ConsoleEvent) : (s.emit e).regs = s.regs := rfl
@[simp] theorem State.emit_pc (s : State) (e : ConsoleEvent) : (s.emit e).pc = s.pc := rfl
@[simp] theorem State.emit_priv (s : State) (e : ConsoleEvent) : (s.emit e).priv = s.priv := rfl
@[simp] theorem State.emit_statusMIE (s : State) (e : ConsoleEvent) : (s.emit e).statusMIE = s.statusMIE := rfl
@[simp] theorem State.emit_statusMPIE (s : State) (e : ConsoleEvent) : (s.emit e).statusMPIE = s.statusMPIE := rfl
@[simp] theorem State.emit_statusMPP (s : State) (e : ConsoleEvent) : (s.emit e).statusMPP = s.statusMPP := rfl
@[simp] theorem State.emit_mie (s : State) (e : ConsoleEvent) : (s.emit e).mie = s.mie := rfl
@[simp] theorem State.emit_mtvec (s : State) (e : ConsoleEvent) : (s.emit e).mtvec = s.mtvec := rfl
@[simp] theorem State.emit_mscratch (s : State) (e : ConsoleEvent) : (s.emit e).mscratch = s.mscratch := rfl
@[simp] theorem State.emit_mepc (s : State) (e : ConsoleEvent) : (s.emit e).mepc = s.mepc := rfl
@[simp] theorem State.emit_mcause (s : State) (e : ConsoleEvent) : (s.emit e).mcause = s.mcause := rfl
@[simp] theorem State.emit_mtval (s : State) (e : ConsoleEvent) : (s.emit e).mtval = s.mtval := rfl
@[simp] theorem State.emit_cycle (s : State) (e : ConsoleEvent) : (s.emit e).cycle = s.cycle := rfl
@[simp] theorem State.emit_timermatch (s : State) (e : ConsoleEvent) : (s.emit e).timermatch = s.timermatch := rfl
@[simp] theorem State.emit_resvValid (s : State) (e : ConsoleEvent) : (s.emit e).resvValid = s.resvValid := rfl
@[simp] theorem State.emit_resvAddr (s : State) (e : ConsoleEvent) : (s.emit e).resvAddr = s.resvAddr := rfl
@[simp] theorem State.emit_mem (s : State) (e : ConsoleEvent) : (s.emit e).mem = s.mem := rfl
@[simp] theorem State.emit_halted (s : State) (e : ConsoleEvent) : (s.emit e).halted = s.halted := rfl
@[simp] theorem State.emit_eofLatch (s : State) (e : ConsoleEvent) : (s.emit e).eofLatch = s.eofLatch := rfl
@[simp] theorem State.emit_kbd (s : State) (e : ConsoleEvent) : (s.emit e).kbd = s.kbd := rfl
@[simp] theorem State.emit_inputClosed (s : State) (e : ConsoleEvent) : (s.emit e).inputClosed = s.inputClosed := rfl
@[simp] theorem State.emit_console (s : State) (e : ConsoleEvent) : (s.emit e).console = s.console ++ [e] := rfl
@[simp] theorem State.emit_result (s : State) (e : ConsoleEvent) : (s.emit e).result = s.result := rfl
@[simp] theorem State.emit_stepTaken (s : State) (e : ConsoleEvent) : (s.emit e).stepTaken = s.stepTaken := rfl
@[simp] theorem State.emit_hostInputs (s : State) (e : ConsoleEvent) : (s.emit e).hostInputs = s.hostInputs := rfl

/-! ### A write of mstatus -/

@[simp] theorem State.setMstatus_cfg (s : State) (v : Word) : (s.setMstatus v).cfg = s.cfg := rfl
@[simp] theorem State.setMstatus_regs (s : State) (v : Word) : (s.setMstatus v).regs = s.regs := rfl
@[simp] theorem State.setMstatus_pc (s : State) (v : Word) : (s.setMstatus v).pc = s.pc := rfl
@[simp] theorem State.setMstatus_priv (s : State) (v : Word) : (s.setMstatus v).priv = s.priv := rfl
@[simp] theorem State.setMstatus_statusMIE (s : State) (v : Word) : (s.setMstatus v).statusMIE = v.getLsbD 3 := rfl
@[simp] theorem State.setMstatus_statusMPIE (s : State) (v : Word) : (s.setMstatus v).statusMPIE = v.getLsbD 7 := rfl
@[simp] theorem State.setMstatus_statusMPP (s : State) (v : Word) : (s.setMstatus v).statusMPP = v.extractLsb' 11 2 := rfl
@[simp] theorem State.setMstatus_mie (s : State) (v : Word) : (s.setMstatus v).mie = s.mie := rfl
@[simp] theorem State.setMstatus_mtvec (s : State) (v : Word) : (s.setMstatus v).mtvec = s.mtvec := rfl
@[simp] theorem State.setMstatus_mscratch (s : State) (v : Word) : (s.setMstatus v).mscratch = s.mscratch := rfl
@[simp] theorem State.setMstatus_mepc (s : State) (v : Word) : (s.setMstatus v).mepc = s.mepc := rfl
@[simp] theorem State.setMstatus_mcause (s : State) (v : Word) : (s.setMstatus v).mcause = s.mcause := rfl
@[simp] theorem State.setMstatus_mtval (s : State) (v : Word) : (s.setMstatus v).mtval = s.mtval := rfl
@[simp] theorem State.setMstatus_cycle (s : State) (v : Word) : (s.setMstatus v).cycle = s.cycle := rfl
@[simp] theorem State.setMstatus_timermatch (s : State) (v : Word) : (s.setMstatus v).timermatch = s.timermatch := rfl
@[simp] theorem State.setMstatus_resvValid (s : State) (v : Word) : (s.setMstatus v).resvValid = s.resvValid := rfl
@[simp] theorem State.setMstatus_resvAddr (s : State) (v : Word) : (s.setMstatus v).resvAddr = s.resvAddr := rfl
@[simp] theorem State.setMstatus_mem (s : State) (v : Word) : (s.setMstatus v).mem = s.mem := rfl
@[simp] theorem State.setMstatus_halted (s : State) (v : Word) : (s.setMstatus v).halted = s.halted := rfl
@[simp] theorem State.setMstatus_eofLatch (s : State) (v : Word) : (s.setMstatus v).eofLatch = s.eofLatch := rfl
@[simp] theorem State.setMstatus_kbd (s : State) (v : Word) : (s.setMstatus v).kbd = s.kbd := rfl
@[simp] theorem State.setMstatus_inputClosed (s : State) (v : Word) : (s.setMstatus v).inputClosed = s.inputClosed := rfl
@[simp] theorem State.setMstatus_console (s : State) (v : Word) : (s.setMstatus v).console = s.console := rfl
@[simp] theorem State.setMstatus_result (s : State) (v : Word) : (s.setMstatus v).result = s.result := rfl
@[simp] theorem State.setMstatus_stepTaken (s : State) (v : Word) : (s.setMstatus v).stepTaken = s.stepTaken := rfl
@[simp] theorem State.setMstatus_hostInputs (s : State) (v : Word) : (s.setMstatus v).hostInputs = s.hostInputs := rfl

/-! ### Time passing -/

@[simp] theorem State.advanceTime_cfg (s : State) (d : Nat) : (s.advanceTime d).cfg = s.cfg := rfl
@[simp] theorem State.advanceTime_regs (s : State) (d : Nat) : (s.advanceTime d).regs = s.regs := rfl
@[simp] theorem State.advanceTime_pc (s : State) (d : Nat) : (s.advanceTime d).pc = s.pc := rfl
@[simp] theorem State.advanceTime_priv (s : State) (d : Nat) : (s.advanceTime d).priv = s.priv := rfl
@[simp] theorem State.advanceTime_statusMIE (s : State) (d : Nat) : (s.advanceTime d).statusMIE = s.statusMIE := rfl
@[simp] theorem State.advanceTime_statusMPIE (s : State) (d : Nat) : (s.advanceTime d).statusMPIE = s.statusMPIE := rfl
@[simp] theorem State.advanceTime_statusMPP (s : State) (d : Nat) : (s.advanceTime d).statusMPP = s.statusMPP := rfl
@[simp] theorem State.advanceTime_mie (s : State) (d : Nat) : (s.advanceTime d).mie = s.mie := rfl
@[simp] theorem State.advanceTime_mtvec (s : State) (d : Nat) : (s.advanceTime d).mtvec = s.mtvec := rfl
@[simp] theorem State.advanceTime_mscratch (s : State) (d : Nat) : (s.advanceTime d).mscratch = s.mscratch := rfl
@[simp] theorem State.advanceTime_mepc (s : State) (d : Nat) : (s.advanceTime d).mepc = s.mepc := rfl
@[simp] theorem State.advanceTime_mcause (s : State) (d : Nat) : (s.advanceTime d).mcause = s.mcause := rfl
@[simp] theorem State.advanceTime_mtval (s : State) (d : Nat) : (s.advanceTime d).mtval = s.mtval := rfl
@[simp] theorem State.advanceTime_cycle (s : State) (d : Nat) : (s.advanceTime d).cycle = s.cycle + BitVec.ofNat 64 d := rfl
@[simp] theorem State.advanceTime_timermatch (s : State) (d : Nat) : (s.advanceTime d).timermatch = s.timermatch := rfl
@[simp] theorem State.advanceTime_resvValid (s : State) (d : Nat) : (s.advanceTime d).resvValid = s.resvValid := rfl
@[simp] theorem State.advanceTime_resvAddr (s : State) (d : Nat) : (s.advanceTime d).resvAddr = s.resvAddr := rfl
@[simp] theorem State.advanceTime_mem (s : State) (d : Nat) : (s.advanceTime d).mem = s.mem := rfl
@[simp] theorem State.advanceTime_halted (s : State) (d : Nat) : (s.advanceTime d).halted = s.halted := rfl
@[simp] theorem State.advanceTime_eofLatch (s : State) (d : Nat) : (s.advanceTime d).eofLatch = s.eofLatch := rfl
@[simp] theorem State.advanceTime_kbd (s : State) (d : Nat) : (s.advanceTime d).kbd = s.kbd := rfl
@[simp] theorem State.advanceTime_inputClosed (s : State) (d : Nat) : (s.advanceTime d).inputClosed = s.inputClosed := rfl
@[simp] theorem State.advanceTime_console (s : State) (d : Nat) : (s.advanceTime d).console = s.console := rfl
@[simp] theorem State.advanceTime_result (s : State) (d : Nat) : (s.advanceTime d).result = s.result := rfl
@[simp] theorem State.advanceTime_stepTaken (s : State) (d : Nat) : (s.advanceTime d).stepTaken = s.stepTaken := rfl
@[simp] theorem State.advanceTime_hostInputs (s : State) (d : Nat) : (s.advanceTime d).hostInputs = s.hostInputs := rfl

/-! ### The general registers -/

@[simp] theorem State.x_zero (s : State) : s.x 0 = 0 := rfl

/-- R11: x0 keeps reading 0, the register written reads the value, every other register reads as before. -/
theorem State.x_setX (s : State) (r q : Reg) (v : Word) :
    (s.setX r v).x q = if q = 0 then 0 else if q = r then v else s.x q := by
  unfold State.x State.setX
  by_cases hq : q.val = 0
  · have : q = 0 := Fin.ext hq
    simp [this]
  · have hq0 : q ≠ 0 := fun h => hq (by simp [h])
    by_cases hr : r.val = 0
    · have hqr : q ≠ r := fun h => hq (by rw [h]; exact hr)
      simp [hq, hr, hq0, hqr]
    · by_cases hqr : q = r
      · subst hqr
        simp [hq, hq0]
      · have : r.val - 1 ≠ q.val - 1 := fun h => hqr (Fin.ext (by omega))
        simp [hq, hr, hq0, hqr, this]

/-- A state with the same registers reads the same. -/
theorem State.x_congr {s t : State} (h : t.regs = s.regs) (r : Reg) : t.x r = s.x r := by
  unfold State.x
  simp only [h]

@[simp] theorem State.setX_x_self (s : State) (r : Reg) (v : Word) : (s.setX r v).x r = if r = 0 then 0 else v := by
  simp [State.x_setX]

theorem State.setX_x_other (s : State) (r q : Reg) (v : Word) (h : q ≠ r) : (s.setX r v).x q = s.x q := by
  rw [State.x_setX]
  by_cases hq : q = 0
  · simp [hq]
  · simp [hq, h]

@[simp] theorem State.commit_x (s : State) (c : StepResult) (p : Word) (r : Reg) : (s.commit c p).x r = s.x r := rfl
@[simp] theorem State.retire_x (s : State) (r : Reg) : (s.retire).x r = s.x r := rfl
@[simp] theorem State.trapEntry_x (s : State) (cause epc tval : Word) (r : Reg) : (s.trapEntry cause epc tval).x r = s.x r := rfl
@[simp] theorem State.raise_x (s : State) (e : Raised) (r : Reg) : (s.raise e).x r = s.x r := rfl
@[simp] theorem State.takeTimerInterrupt_x (s : State) (r : Reg) : (s.takeTimerInterrupt).x r = s.x r := rfl
@[simp] theorem State.trapReturn_x (s : State) (r : Reg) : (s.trapReturn).x r = s.x r := rfl
@[simp] theorem State.busStore_x (s : State) (off : Nat) (n : Width) (v : Word) (r : Reg) : (s.busStore off n v).x r = s.x r := rfl
@[simp] theorem State.reserve_x (s : State) (addr : Word) (r : Reg) : (s.reserve addr).x r = s.x r := rfl
@[simp] theorem State.clearReservation_x (s : State) (r : Reg) : (s.clearReservation).x r = s.x r := rfl
@[simp] theorem State.pollKeyboard_x (s : State) (r : Reg) : (s.pollKeyboard).x r = s.x r := rfl
@[simp] theorem State.takeKey_x (s : State) (r : Reg) : (s.takeKey).x r = s.x r := rfl
@[simp] theorem State.emit_x (s : State) (e : ConsoleEvent) (r : Reg) : (s.emit e).x r = s.x r := rfl
@[simp] theorem State.setMstatus_x (s : State) (v : Word) (r : Reg) : (s.setMstatus v).x r = s.x r := rfl
@[simp] theorem State.advanceTime_x (s : State) (d : Nat) (r : Reg) : (s.advanceTime d).x r = s.x r := rfl

/-! ### Guest addresses: every update keeps RAM_BASE -/

@[simp] theorem State.setX_offset (s : State) (r : Reg) (v : Word) (a : Word) : (s.setX r v).offset a = s.offset a := rfl
@[simp] theorem State.commit_offset (s : State) (c : StepResult) (p : Word) (a : Word) : (s.commit c p).offset a = s.offset a := rfl
@[simp] theorem State.retire_offset (s : State) (a : Word) : (s.retire).offset a = s.offset a := rfl
@[simp] theorem State.trapEntry_offset (s : State) (cause epc tval : Word) (a : Word) : (s.trapEntry cause epc tval).offset a = s.offset a := rfl
@[simp] theorem State.raise_offset (s : State) (e : Raised) (a : Word) : (s.raise e).offset a = s.offset a := rfl
@[simp] theorem State.takeTimerInterrupt_offset (s : State) (a : Word) : (s.takeTimerInterrupt).offset a = s.offset a := rfl
@[simp] theorem State.trapReturn_offset (s : State) (a : Word) : (s.trapReturn).offset a = s.offset a := rfl
@[simp] theorem State.busStore_offset (s : State) (off : Nat) (n : Width) (v : Word) (a : Word) : (s.busStore off n v).offset a = s.offset a := rfl
@[simp] theorem State.reserve_offset (s : State) (addr : Word) (a : Word) : (s.reserve addr).offset a = s.offset a := rfl
@[simp] theorem State.clearReservation_offset (s : State) (a : Word) : (s.clearReservation).offset a = s.offset a := rfl
@[simp] theorem State.pollKeyboard_offset (s : State) (a : Word) : (s.pollKeyboard).offset a = s.offset a := rfl
@[simp] theorem State.takeKey_offset (s : State) (a : Word) : (s.takeKey).offset a = s.offset a := rfl
@[simp] theorem State.emit_offset (s : State) (e : ConsoleEvent) (a : Word) : (s.emit e).offset a = s.offset a := rfl
@[simp] theorem State.setMstatus_offset (s : State) (v : Word) (a : Word) : (s.setMstatus v).offset a = s.offset a := rfl
@[simp] theorem State.advanceTime_offset (s : State) (d : Nat) (a : Word) : (s.advanceTime d).offset a = s.offset a := rfl

/-! ### Writing back one register -/

@[simp] theorem State.writeback_cfg (s : State) (r : Reg) (v : Word) : (s.writeback r v).cfg = s.cfg := rfl
@[simp] theorem State.writeback_regs (s : State) (r : Reg) (v : Word) : (s.writeback r v).regs = (s.setX r v).regs := rfl
@[simp] theorem State.writeback_pc (s : State) (r : Reg) (v : Word) : (s.writeback r v).pc = s.pc + 4 := rfl
@[simp] theorem State.writeback_priv (s : State) (r : Reg) (v : Word) : (s.writeback r v).priv = s.priv := rfl
@[simp] theorem State.writeback_statusMIE (s : State) (r : Reg) (v : Word) : (s.writeback r v).statusMIE = s.statusMIE := rfl
@[simp] theorem State.writeback_statusMPIE (s : State) (r : Reg) (v : Word) : (s.writeback r v).statusMPIE = s.statusMPIE := rfl
@[simp] theorem State.writeback_statusMPP (s : State) (r : Reg) (v : Word) : (s.writeback r v).statusMPP = s.statusMPP := rfl
@[simp] theorem State.writeback_mie (s : State) (r : Reg) (v : Word) : (s.writeback r v).mie = s.mie := rfl
@[simp] theorem State.writeback_mtvec (s : State) (r : Reg) (v : Word) : (s.writeback r v).mtvec = s.mtvec := rfl
@[simp] theorem State.writeback_mscratch (s : State) (r : Reg) (v : Word) : (s.writeback r v).mscratch = s.mscratch := rfl
@[simp] theorem State.writeback_mepc (s : State) (r : Reg) (v : Word) : (s.writeback r v).mepc = s.mepc := rfl
@[simp] theorem State.writeback_mcause (s : State) (r : Reg) (v : Word) : (s.writeback r v).mcause = s.mcause := rfl
@[simp] theorem State.writeback_mtval (s : State) (r : Reg) (v : Word) : (s.writeback r v).mtval = s.mtval := rfl
@[simp] theorem State.writeback_cycle (s : State) (r : Reg) (v : Word) : (s.writeback r v).cycle = s.cycle + 1 := rfl
@[simp] theorem State.writeback_timermatch (s : State) (r : Reg) (v : Word) : (s.writeback r v).timermatch = s.timermatch := rfl
@[simp] theorem State.writeback_resvValid (s : State) (r : Reg) (v : Word) : (s.writeback r v).resvValid = s.resvValid := rfl
@[simp] theorem State.writeback_resvAddr (s : State) (r : Reg) (v : Word) : (s.writeback r v).resvAddr = s.resvAddr := rfl
@[simp] theorem State.writeback_mem (s : State) (r : Reg) (v : Word) : (s.writeback r v).mem = s.mem := rfl
@[simp] theorem State.writeback_halted (s : State) (r : Reg) (v : Word) : (s.writeback r v).halted = s.halted := Bool.or_false _
@[simp] theorem State.writeback_eofLatch (s : State) (r : Reg) (v : Word) : (s.writeback r v).eofLatch = s.eofLatch := rfl
@[simp] theorem State.writeback_kbd (s : State) (r : Reg) (v : Word) : (s.writeback r v).kbd = s.kbd := rfl
@[simp] theorem State.writeback_inputClosed (s : State) (r : Reg) (v : Word) : (s.writeback r v).inputClosed = s.inputClosed := rfl
@[simp] theorem State.writeback_console (s : State) (r : Reg) (v : Word) : (s.writeback r v).console = s.console := rfl
@[simp] theorem State.writeback_result (s : State) (r : Reg) (v : Word) : (s.writeback r v).result = .normal := rfl
@[simp] theorem State.writeback_stepTaken (s : State) (r : Reg) (v : Word) : (s.writeback r v).stepTaken = s.stepTaken := rfl
@[simp] theorem State.writeback_hostInputs (s : State) (r : Reg) (v : Word) : (s.writeback r v).hostInputs = s.hostInputs := rfl

@[simp] theorem State.writeback_offset (s : State) (r : Reg) (v a : Word) : (s.writeback r v).offset a = s.offset a := rfl

@[simp] theorem State.writeback_x_self (s : State) (r : Reg) (v : Word) : (s.writeback r v).x r = if r = 0 then 0 else v :=
  State.setX_x_self s r v

theorem State.writeback_x_other (s : State) (r q : Reg) (v : Word) (h : q ≠ r) : (s.writeback r v).x q = s.x q :=
  State.setX_x_other s r q v h

end Sys2Proof.Machine
end

