-- ==== Sys2Proof/Laws/Memory.lean ====
section
/-! SUPPORT. The laws of the memory image: a read after a write, and that every operation keeps the canonical form and the bounds. -/

namespace Sys2Proof.Machine

/-! ### One byte -/

theorem Memory.above_mono {lo lo' : Nat} (h : lo' ≤ lo) : ∀ {m : Memory}, m.above lo = true → m.above lo' = true
  | [], _ => rfl
  | (k, b) :: m, hm => by
    simp only [Memory.above, Bool.and_eq_true, decide_eq_true_eq] at hm ⊢
    exact ⟨by omega, Memory.above_mono h hm.2⟩

/-- An offset at or below the bound of the listed ones reads as unlisted. -/
theorem Memory.read_of_above {lo a : Nat} (ha : a ≤ lo) : ∀ {m : Memory}, m.above lo = true → m.read a = Memory.unlisted
  | [], _ => rfl
  | (k, b) :: m, hm => by
    simp only [Memory.above, Bool.and_eq_true, decide_eq_true_eq] at hm
    have : a ≠ k := by omega
    simp only [Memory.read, this, if_false]
    exact Memory.read_of_above ha hm.2

/-- A write leaves every other byte alone, whatever the image. -/
theorem Memory.read_write_other {a a' : Nat} (h : a' ≠ a) (v : Byte) : ∀ m : Memory, (m.write a v).read a' = m.read a'
  | [] => by
    unfold Memory.write
    split <;> simp [Memory.read, h]
  | (k, b) :: m => by
    unfold Memory.write
    split
    · split <;> simp [Memory.read, h]
    · split
      · subst_vars
        split <;> simp [Memory.read, h]
      · simp only [Memory.read, Memory.read_write_other h v m]

/-- A read after a write to the same offset gives the value written. -/
theorem Memory.read_write_same (a : Nat) (v : Byte) : ∀ {m : Memory}, m.wf = true → (m.write a v).read a = v
  | [], _ => by
    unfold Memory.write
    split <;> simp_all [Memory.read]
  | (k, b) :: m, hm => by
    simp only [Memory.wf, Bool.and_eq_true, decide_eq_true_eq] at hm
    unfold Memory.write
    split
    · rename_i hk
      split
      · rename_i hv
        rw [hv]
        have hne : a ≠ k := by omega
        simp only [Memory.read, hne, if_false]
        exact Memory.read_of_above (by omega) hm.1.2
      · simp [Memory.read]
    · split
      · rename_i hk
        split
        · rename_i hv
          rw [hv, hk]
          exact Memory.read_of_above (Nat.le_refl _) hm.1.2
        · simp [Memory.read]
      · rename_i hk
        simp only [Memory.read, hk, if_false]
        exact Memory.read_write_same a v hm.2

theorem Memory.read_write {m : Memory} (hm : m.wf = true) (a a' : Nat) (v : Byte) :
    (m.write a v).read a' = if a' = a then v else m.read a' := by
  split
  · subst_vars
    exact Memory.read_write_same a' v hm
  · exact Memory.read_write_other ‹_› v m

theorem Memory.write_above {lo a : Nat} (v : Byte) (ha : lo < a) :
    ∀ {m : Memory}, m.above lo = true → (m.write a v).above lo = true
  | [], _ => by
    unfold Memory.write
    split <;> simp [Memory.above, ha]
  | (k, b) :: m, hm => by
    simp only [Memory.above, Bool.and_eq_true, decide_eq_true_eq] at hm
    unfold Memory.write
    split
    · split <;> simp [Memory.above, hm, ha]
    · split
      · split <;> simp [Memory.above, hm, ha]
      · simp [Memory.above, hm, Memory.write_above v ha hm.2]

/-- A write keeps the canonical form. -/
theorem Memory.write_wf (a : Nat) (v : Byte) : ∀ {m : Memory}, m.wf = true → (m.write a v).wf = true
  | [], _ => by
    unfold Memory.write
    split
    · rfl
    · simp [Memory.wf, Memory.above, *]
  | (k, b) :: m, hm => by
    have h := hm
    simp only [Memory.wf, Bool.and_eq_true, decide_eq_true_eq] at h
    unfold Memory.write
    split
    · split
      · exact hm
      · rename_i hk hv
        have : Memory.above a m = true := Memory.above_mono (Nat.le_of_lt hk) h.1.2
        simp [Memory.wf, Memory.above, h, hk, hv, this]
    · split
      · split
        · exact h.2
        · subst_vars
          simp [Memory.wf, *]
      · have : Memory.above k (Memory.write m a v) = true := Memory.write_above v (by omega) h.1.2
        simp [Memory.wf, h, this, Memory.write_wf a v h.2]

theorem Memory.write_below {n a : Nat} (v : Byte) (ha : a < n) :
    ∀ {m : Memory}, m.below n = true → (m.write a v).below n = true
  | [], _ => by
    unfold Memory.write
    split <;> simp [Memory.below, ha]
  | (k, b) :: m, hm => by
    simp only [Memory.below, Bool.and_eq_true, decide_eq_true_eq] at hm
    unfold Memory.write
    split
    · split <;> simp [Memory.below, hm, ha]
    · split
      · split <;> simp [Memory.below, hm, ha]
      · simp [Memory.below, hm, Memory.write_below v ha hm.2]

/-! ### Accesses of a width -/

theorem Memory.store_wf {m : Memory} (hm : m.wf = true) (off : Nat) (n : Width) (v : Word) : (m.store off n v).wf = true := by
  cases n
  · exact Memory.write_wf _ _ hm
  · exact Memory.write_wf _ _ (Memory.write_wf _ _ hm)
  · exact Memory.write_wf _ _ (Memory.write_wf _ _ (Memory.write_wf _ _ (Memory.write_wf _ _ hm)))

theorem Memory.store_below {m : Memory} {limit : Nat} (hm : m.below limit = true) (off : Nat) (n : Width) (v : Word)
    (h : off + n.bytes ≤ limit) : (m.store off n v).below limit = true := by
  cases n <;> simp only [Width.bytes] at h <;> simp only [Memory.store] <;>
    repeat' first
      | exact hm
      | apply Memory.write_below
      | omega

/-- A store leaves every byte outside its own alone. -/
theorem Memory.store_read_other (m : Memory) (off : Nat) (n : Width) (v : Word) (a : Nat) (h : a < off ∨ off + n.bytes ≤ a) :
    (m.store off n v).read a = m.read a := by
  cases n <;> simp only [Width.bytes] at h <;> simp only [Memory.store] <;>
    repeat' first
      | rfl
      | rw [Memory.read_write_other (by omega)]

/-- A store puts the k-th byte of the value at the k-th offset: little-endian (R43). -/
theorem Memory.store_read_same {m : Memory} (hm : m.wf = true) (off : Nat) (n : Width) (v : Word) (k : Nat) (h : k < n.bytes) :
    (m.store off n v).read (off + k) = v.extractLsb' (8 * k) 8 := by
  have h1 (a : Nat) (b : Byte) := Memory.write_wf a b hm
  have h2 (a a' : Nat) (b b' : Byte) := Memory.write_wf a' b' (h1 a b)
  have h3 (a a' a'' : Nat) (b b' b'' : Byte) := Memory.write_wf a'' b'' (h2 a a' b b')
  cases n <;> simp only [Width.bytes] at h
  · obtain rfl : k = 0 := by omega
    simp [Memory.store, Memory.read_write hm]
  · obtain rfl | rfl : k = 0 ∨ k = 1 := by omega
    all_goals simp [Memory.store, Memory.read_write hm, Memory.read_write (h1 _ _)]
  · obtain rfl | rfl | rfl | rfl : k = 0 ∨ k = 1 ∨ k = 2 ∨ k = 3 := by omega
    all_goals simp [Memory.store, Memory.read_write hm, Memory.read_write (h1 _ _), Memory.read_write (h2 _ _ _ _),
      Memory.read_write (h3 _ _ _ _ _ _)]

/-- Two canonical images that read the same are the same. -/
theorem Memory.ext_of_wf : ∀ {m m' : Memory}, m.wf = true → m'.wf = true → (∀ a, m.read a = m'.read a) → m = m'
  | [], [], _, _, _ => rfl
  | [], (k, b) :: m', _, hm', h => by
    simp only [Memory.wf, Bool.and_eq_true, decide_eq_true_eq] at hm'
    have := h k
    simp only [Memory.read, if_true] at this
    exact absurd this.symm hm'.1.1
  | (k, b) :: m, [], hm, _, h => by
    simp only [Memory.wf, Bool.and_eq_true, decide_eq_true_eq] at hm
    have := h k
    simp only [Memory.read, if_true] at this
    exact absurd this hm.1.1
  | (k, b) :: m, (k', b') :: m', hm, hm', h => by
    simp only [Memory.wf, Bool.and_eq_true, decide_eq_true_eq] at hm hm'
    have hk : k = k' := by
      rcases Nat.lt_trichotomy k k' with hlt | heq | hgt
      · have := h k
        have hne : k ≠ k' := by omega
        simp only [Memory.read, if_true, hne, if_false] at this
        rw [Memory.read_of_above (Nat.le_of_lt hlt) hm'.1.2] at this
        exact absurd this hm.1.1
      · exact heq
      · have := h k'
        have hne : k' ≠ k := by omega
        simp only [Memory.read, if_true, hne, if_false] at this
        rw [Memory.read_of_above (Nat.le_of_lt hgt) hm.1.2] at this
        exact absurd this.symm hm'.1.1
    subst hk
    have hb : b = b' := by simpa [Memory.read] using h k
    subst hb
    have : m = m' := by
      apply Memory.ext_of_wf hm.2 hm'.2
      intro a
      by_cases ha : a = k
      · subst ha
        rw [Memory.read_of_above (Nat.le_refl _) hm.1.2, Memory.read_of_above (Nat.le_refl _) hm'.1.2]
      · simpa [Memory.read, ha] using h a
    rw [this]

/-! ### The bus primitives -/

theorem State.busStore_wf (s : State) (off : Nat) (n : Width) (v : Word) (h : s.mem.wf = true) :
    (s.busStore off n v).mem.wf = true := by
  simp only [State.busStore]
  split
  · exact h
  · exact Memory.store_wf h off n v

theorem State.busStore_below (s : State) (off : Nat) (n : Width) (v : Word) (h : s.mem.below s.cfg.dramSize = true) :
    (s.busStore off n v).mem.below s.cfg.dramSize = true := by
  simp only [State.busStore]
  split
  · exact h
  · exact Memory.store_below h off n v (by omega)

theorem State.busStore_read_other (s : State) (off : Nat) (n : Width) (v : Word) (a : Nat)
    (h : a < off ∨ off + n.bytes ≤ a) : (s.busStore off n v).mem.read a = s.mem.read a := by
  simp only [State.busStore]
  split
  · rfl
  · exact Memory.store_read_other s.mem off n v a h

theorem State.busStore_read_same (s : State) (off : Nat) (n : Width) (v : Word) (k : Nat) (hw : s.mem.wf = true)
    (hr : off + n.bytes ≤ s.cfg.dramSize) (h : k < n.bytes) :
    (s.busStore off n v).mem.read (off + k) = v.extractLsb' (8 * k) 8 := by
  simp only [State.busStore]
  rw [if_neg (by omega)]
  exact Memory.store_read_same hw off n v k h

/-! ### Image load -/

theorem imageFrom_above : ∀ (img : List Byte) (off lo : Nat), lo < off → (imageFrom off img).above lo = true
  | [], _, _, _ => rfl
  | b :: bs, off, lo, h => by
    unfold imageFrom
    split
    · exact imageFrom_above bs (off + 1) lo (by omega)
    · simp [Memory.above, h, imageFrom_above bs (off + 1) lo (by omega)]

theorem imageFrom_wf : ∀ (img : List Byte) (off : Nat), (imageFrom off img).wf = true
  | [], _ => rfl
  | b :: bs, off => by
    unfold imageFrom
    split
    · exact imageFrom_wf bs (off + 1)
    · simp [Memory.wf, *, imageFrom_above bs (off + 1) off (by omega), imageFrom_wf bs (off + 1)]

theorem imageFrom_below : ∀ (img : List Byte) (off n : Nat), off + img.length ≤ n → (imageFrom off img).below n = true
  | [], _, _, _ => rfl
  | b :: bs, off, n, h => by
    simp only [List.length_cons] at h
    unfold imageFrom
    split
    · exact imageFrom_below bs (off + 1) n (by omega)
    · simp only [Memory.below, Bool.and_eq_true, decide_eq_true_eq]
      exact ⟨by omega, imageFrom_below bs (off + 1) n (by omega)⟩

/-- The loaded image reads as the bytes given, and as 0 after them (R296). -/
theorem imageFrom_read : ∀ (img : List Byte) (off a : Nat),
    (imageFrom off img).read a = if off ≤ a then img.getD (a - off) 0 else 0
  | [], off, a => by simp [imageFrom, Memory.read, Memory.unlisted]
  | b :: bs, off, a => by
    unfold imageFrom
    rcases Nat.lt_trichotomy a off with h | h | h
    · have h2 : ¬ off + 1 ≤ a := by omega
      have h3 : a ≠ off := by omega
      split <;> simp [Memory.read, imageFrom_read bs (off + 1) a, h2, h3] <;> omega
    · subst h
      have h2 : ¬ a + 1 ≤ a := by omega
      split
      · rename_i hb
        simp [imageFrom_read bs (a + 1) a, hb, Memory.unlisted]
      · simp [Memory.read]
    · have h2 : off + 1 ≤ a := by omega
      have h3 : a ≠ off := by omega
      obtain ⟨d, hd⟩ : ∃ d, a - off = d + 1 := ⟨a - off - 1, by omega⟩
      have hd' : a - (off + 1) = d := by omega
      split <;> simp [Memory.read, imageFrom_read bs (off + 1) a, h2, h3, hd, hd', Nat.le_of_lt h]

/-- The image of the state after reset is canonical. -/
theorem State.reset_mem_wf : State.reset.mem.wf = true := rfl

end Sys2Proof.Machine
end

