-- ==== Sys2Proof/Laws/Ops.lean ====
section
/-! SUPPORT. What each shared operation can do, said once: retirement, a written register, a raised exception, the memory-bus arbiter, the
device, the CSR access, the fetch, the host's turn. -/

namespace Sys2Proof.Machine

/-! ### Retirement -/

/-- Retiring changes pc and cycle only. -/
theorem State.retire_spec (s : State) : OnlyRetires (s.pc + 4) s s.retire :=
  ⟨fun _ => rfl, ⟨rfl, rfl, rfl, State.retire_halted s⟩, fun _ => rfl,
    ⟨⟨rfl, rfl, rfl, rfl⟩, ⟨rfl, rfl, rfl⟩, ⟨rfl, rfl, rfl⟩, rfl, ⟨rfl, rfl⟩, ⟨rfl, rfl, rfl⟩, rfl, ⟨rfl, rfl, rfl⟩⟩⟩

/-- An instruction whose one effect is a register write. -/
theorem State.writeback_spec (s : State) (rd : Reg) (v : Word) : WritesOneRegister rd v (s.pc + 4) s (s.writeback rd v) :=
  ⟨State.writeback_x_self s rd v, fun r h => State.writeback_x_other s rd r v h, ⟨rfl, rfl, rfl, State.writeback_halted s rd v⟩,
    fun _ => rfl,
    ⟨⟨rfl, rfl, rfl, rfl⟩, ⟨rfl, rfl, rfl⟩, ⟨rfl, rfl, rfl⟩, rfl, ⟨rfl, rfl⟩, ⟨rfl, rfl, rfl⟩, rfl, ⟨rfl, rfl, rfl⟩⟩⟩

/-- What a jump does. -/
theorem State.jump_spec (s : State) (rd : Reg) (target : Word) :
    WritesOneRegister rd (s.pc + 4) target s (s.jump rd target) :=
  ⟨State.setX_x_self s rd _, fun r h => State.setX_x_other s rd r _ h, ⟨rfl, rfl, rfl, Bool.or_false _⟩, fun _ => rfl,
    ⟨⟨rfl, rfl, rfl, rfl⟩, ⟨rfl, rfl, rfl⟩, ⟨rfl, rfl, rfl⟩, rfl, ⟨rfl, rfl⟩, ⟨rfl, rfl, rfl⟩, rfl, ⟨rfl, rfl, rfl⟩⟩⟩

/-- What a branch does. -/
theorem State.branch_spec (s : State) (cond : Bool) (imm : BitVec 13) :
    OnlyRetires (if cond then s.pc + immB imm else s.pc + 4) s (s.branch cond imm) := by
  cases cond
  · exact State.retire_spec s
  · exact ⟨fun _ => rfl, ⟨rfl, rfl, rfl, Bool.or_false _⟩, fun _ => rfl,
    ⟨⟨rfl, rfl, rfl, rfl⟩, ⟨rfl, rfl, rfl⟩, ⟨rfl, rfl, rfl⟩, rfl, ⟨rfl, rfl⟩, ⟨rfl, rfl, rfl⟩, rfl, ⟨rfl, rfl, rfl⟩⟩⟩

/-- Writing back a register keeps what an update before it kept. -/
theorem SameSystem.writeback {s u : State} (h : SameSystem s u) (rd : Reg) (v : Word) : SameSystem s (u.writeback rd v) :=
  ⟨⟨h.status.priv, h.status.mie, h.status.mpie, h.status.mpp⟩, ⟨h.software.mie, h.software.mtvec, h.software.mscratch⟩,
    ⟨h.trap.mepc, h.trap.mcause, h.trap.mtval⟩, h.timermatch, ⟨h.reservation.valid, h.reservation.addr⟩,
    ⟨h.keyboard.kbd, h.keyboard.eofLatch, h.keyboard.inputClosed⟩, h.console, ⟨h.run.cfg, h.run.hostInputs, h.run.stepTaken⟩⟩

/-- A store to the image changes no register of the system. -/
theorem State.busStore_sameSystem (s : State) (off : Nat) (n : Width) (v : Word) : SameSystem s (s.busStore off n v) :=
  ⟨⟨rfl, rfl, rfl, rfl⟩, ⟨rfl, rfl, rfl⟩, ⟨rfl, rfl, rfl⟩, rfl, ⟨rfl, rfl⟩, ⟨rfl, rfl, rfl⟩, rfl, ⟨rfl, rfl, rfl⟩⟩

/-! ### Traps -/

/-- What trap entry does, and that it does nothing else (R258). -/
theorem State.trapEntry_spec (s : State) (cause epc tval : Word) : TookTrap cause epc tval s (s.trapEntry cause epc tval) :=
  ⟨rfl, rfl, rfl, rfl, rfl, rfl, rfl, rfl, fun _ => rfl, fun _ => rfl, ⟨rfl, rfl, rfl⟩, rfl, ⟨rfl, rfl⟩, ⟨rfl, rfl, rfl⟩, rfl,
    ⟨rfl, rfl, rfl⟩, rfl⟩

/-- What raising an exception does (R256, R257). -/
theorem State.raise_spec (s : State) (e : Exception) (info : Word) : RaisedException e info s (s.raise ⟨e, info⟩) :=
  ⟨⟨rfl, rfl, rfl, rfl, rfl, rfl, rfl, rfl, fun _ => rfl, fun _ => rfl, ⟨rfl, rfl, rfl⟩, rfl, ⟨rfl, rfl⟩, ⟨rfl, rfl, rfl⟩, rfl,
    ⟨rfl, rfl, rfl⟩, rfl⟩, rfl, rfl⟩

/-- What taking the timer interrupt does (R91, R266). -/
theorem State.takeTimerInterrupt_spec (s : State) : TookTrap timerCause s.pc 0 s s.takeTimerInterrupt :=
  ⟨rfl, rfl, rfl, rfl, rfl, rfl, rfl, rfl, fun _ => rfl, fun _ => rfl, ⟨rfl, rfl, rfl⟩, rfl, ⟨rfl, rfl⟩, ⟨rfl, rfl, rfl⟩, rfl,
    ⟨rfl, rfl, rfl⟩, rfl⟩

/-! ### The bus primitives -/

theorem Width.bytes_pos (n : Width) : 0 < n.bytes := by
  cases n <;> decide

theorem State.busLoad_inRange (s : State) (off : Nat) (n : Width) (h : off + n.bytes ≤ s.cfg.dramSize) :
    s.busLoad off n = s.mem.load off n := by
  simp only [State.busLoad]
  rw [if_neg (by omega)]

theorem State.busLoad_outOfRange (s : State) (off : Nat) (n : Width) (h : off + n.bytes > s.cfg.dramSize) :
    s.busLoad off n = 0 := by
  simp only [State.busLoad]
  rw [if_pos h]

theorem State.busStore_outOfRange (s : State) (off : Nat) (n : Width) (v : Word) (h : off + n.bytes > s.cfg.dramSize) :
    s.busStore off n v = s := by
  simp only [State.busStore]
  rw [if_pos h]

/-- Inside the image the offsets of the bytes of an access do not wrap. -/
theorem State.offset_add (s : State) (addr : Word) (k : Nat) (h : s.offset addr + k < s.cfg.dramSize) :
    s.offset (addr + BitVec.ofNat 32 k) = s.offset addr + k := by
  have hd := s.cfg.valid.2.2.1
  simp only [State.offset] at h ⊢
  have h1 : addr + BitVec.ofNat 32 k - s.cfg.ramBase = (addr - s.cfg.ramBase) + BitVec.ofNat 32 k := by
    rw [BitVec.sub_eq_add_neg, BitVec.sub_eq_add_neg, BitVec.add_assoc, BitVec.add_comm (BitVec.ofNat 32 k), ← BitVec.add_assoc]
  rw [h1, BitVec.toNat_add, BitVec.toNat_ofNat]
  have hk : k % 2 ^ 32 = k := Nat.mod_eq_of_lt (by omega)
  rw [hk, Nat.mod_eq_of_lt (by omega)]

/-- The byte of RAM k bytes after an address. -/
theorem State.ramByte_add (s : State) (addr : Word) (k : Nat) (h : s.offset addr + k < s.cfg.dramSize) :
    s.ramByte (addr + BitVec.ofNat 32 k) = s.mem.read (s.offset addr + k) := by
  simp only [State.ramByte, State.offset_add s addr k h]

/-- A byte, a halfword or a word of RAM from its bytes, the byte at the lowest address lowest (R43). -/
theorem State.load_byte (s : State) (addr : Word) (h : s.offset addr + 1 ≤ s.cfg.dramSize) :
    s.busLoad (s.offset addr) .byte = (s.ramByte (addr + BitVec.ofNat 32 0)).setWidth 32 := by
  rw [State.busLoad_inRange s _ .byte h, State.ramByte_add s addr 0 (by omega)]
  rfl

theorem State.load_half (s : State) (addr : Word) (h : s.offset addr + 2 ≤ s.cfg.dramSize) :
    s.busLoad (s.offset addr) .half =
      (s.ramByte (addr + BitVec.ofNat 32 1) ++ s.ramByte (addr + BitVec.ofNat 32 0)).setWidth 32 := by
  rw [State.busLoad_inRange s _ .half h, State.ramByte_add s addr 0 (by omega), State.ramByte_add s addr 1 (by omega)]
  rfl

theorem State.load_word (s : State) (addr : Word) (h : s.offset addr + 4 ≤ s.cfg.dramSize) :
    s.busLoad (s.offset addr) .word =
      s.ramByte (addr + BitVec.ofNat 32 3) ++ s.ramByte (addr + BitVec.ofNat 32 2) ++ s.ramByte (addr + BitVec.ofNat 32 1) ++
        s.ramByte (addr + BitVec.ofNat 32 0) := by
  rw [State.busLoad_inRange s _ .word h, State.ramByte_add s addr 0 (by omega), State.ramByte_add s addr 1 (by omega),
    State.ramByte_add s addr 2 (by omega), State.ramByte_add s addr 3 (by omega)]
  rfl

/-- The bytes of RAM after a store to it. -/
theorem State.store_ramByte (s : State) (addr : Word) (n : Width) (v : Word) (k : Nat) (hw : s.mem.wf = true)
    (hr : s.offset addr + n.bytes ≤ s.cfg.dramSize) (hk : k < n.bytes) :
    (s.busStore (s.offset addr) n v).ramByte (addr + BitVec.ofNat 32 k) = v.extractLsb' (8 * k) 8 := by
  simp only [State.ramByte, State.busStore_offset]
  rw [State.offset_add s addr k (by omega)]
  exact State.busStore_read_same s _ n v k hw hr hk

/-! ### The device -/

/-- What a control load can do: set the latch if the stream closed, consume the first key; nothing else (R51 to R55). -/
theorem State.devLoad_frame (s : State) (p : LoadPort) :
    (s.devLoad p).2 = s ∨ (s.devLoad p).2 = s.pollKeyboard ∨ (s.devLoad p).2 = s.pollKeyboard.takeKey := by
  cases p <;> simp only [State.devLoad, State.readKey, State.readKeyStatus, true_or, or_true]
  split <;> simp

/-- What a control store can do: emit one character, replace a half of `timermatch`, or request the end of the run (R50, R55, R56). -/
theorem State.devStore_frame (s : State) (p : StorePort) (w : Word) :
    ((∃ b, (s.devStore p w).1 = s.emit (.consoleChar b)) ∧ (s.devStore p w).2 = .normal) ∨
    ((∃ m, (s.devStore p w).1 = { s with timermatch := m }) ∧ (s.devStore p w).2 = .normal) ∨
    (p = .syscon ∧ (s.devStore p w).1 = s ∧ (s.devStore p w).2 = requestOf s.cfg.toParams w) := by
  cases p
  · exact .inl ⟨⟨_, rfl⟩, rfl⟩
  · exact .inr (.inr ⟨rfl, rfl, rfl⟩)
  · exact .inr (.inl ⟨⟨_, rfl⟩, rfl⟩)
  · exact .inr (.inl ⟨⟨_, rfl⟩, rfl⟩)

/-! ### The memory-bus arbiter -/

theorem State.inRam_eq (s : State) (addr : Word) (n : Width) :
    s.inRam addr n = decide (s.offset addr + n.bytes ≤ s.cfg.dramSize) := rfl

theorem State.memRead_port (s : State) (addr : Word) (n : Width) (p : LoadPort) (h : loadPort s.cfg.toParams addr = some p) :
    s.memRead addr n = .ok (n.truncate (s.devLoad p).1, (s.devLoad p).2) := by
  simp only [State.memRead, h]

theorem State.memRead_ram (s : State) (addr : Word) (n : Width) (hp : loadPort s.cfg.toParams addr = none)
    (h : s.offset addr + n.bytes ≤ s.cfg.dramSize) : s.memRead addr n = .ok (s.busLoad (s.offset addr) n, s) := by
  simp only [State.memRead, hp, State.inRam_eq, h, decide_true, if_true]

theorem State.memRead_fault (s : State) (addr : Word) (n : Width) (hp : loadPort s.cfg.toParams addr = none)
    (h : s.offset addr + n.bytes > s.cfg.dramSize) : s.memRead addr n = .error ⟨.loadAccessFault, addr⟩ := by
  have : ¬ s.offset addr + n.bytes ≤ s.cfg.dramSize := by omega
  simp only [State.memRead, hp, State.inRam_eq, this, decide_false, Bool.false_eq_true, if_false]

theorem State.memWrite_port (s : State) (addr : Word) (n : Width) (v : Word) (p : StorePort)
    (h : storePort s.cfg.toParams addr = some p) : s.memWrite addr n v = .ok (s.devStore p (n.truncate v)) := by
  simp only [State.memWrite, h]

theorem State.memWrite_ram (s : State) (addr : Word) (n : Width) (v : Word) (hp : storePort s.cfg.toParams addr = none)
    (h : s.offset addr + n.bytes ≤ s.cfg.dramSize) :
    s.memWrite addr n v = .ok (s.busStore (s.offset addr) n v, .normal) := by
  simp only [State.memWrite, hp, State.inRam_eq, h, decide_true, if_true]

theorem State.memWrite_fault (s : State) (addr : Word) (n : Width) (v : Word) (hp : storePort s.cfg.toParams addr = none)
    (h : s.offset addr + n.bytes > s.cfg.dramSize) : s.memWrite addr n v = .error ⟨.storeAccessFault, addr⟩ := by
  have : ¬ s.offset addr + n.bytes ≤ s.cfg.dramSize := by omega
  simp only [State.memWrite, hp, State.inRam_eq, this, decide_false, Bool.false_eq_true, if_false]

/-- Everything a read through the arbiter can do. -/
theorem State.memRead_cases (s : State) (addr : Word) (n : Width) :
    (∃ v t, s.memRead addr n = .ok (v, t) ∧ (t = s ∨ t = s.pollKeyboard ∨ t = s.pollKeyboard.takeKey)) ∨
    s.memRead addr n = .error ⟨.loadAccessFault, addr⟩ := by
  cases hp : loadPort s.cfg.toParams addr with
  | some p => exact .inl ⟨_, _, State.memRead_port s addr n p hp, State.devLoad_frame s p⟩
  | none =>
    by_cases h : s.offset addr + n.bytes ≤ s.cfg.dramSize
    · exact .inl ⟨_, _, State.memRead_ram s addr n hp h, .inl rfl⟩
    · exact .inr (State.memRead_fault s addr n hp (by omega))

/-- Everything a write through the arbiter can do. -/
theorem State.memWrite_cases (s : State) (addr : Word) (n : Width) (v : Word) :
    (∃ b, s.memWrite addr n v = .ok (s.emit (.consoleChar b), .normal)) ∨
    (∃ m, s.memWrite addr n v = .ok ({ s with timermatch := m }, .normal)) ∨
    (addr = s.cfg.sysconAddr ∧ s.memWrite addr n v = .ok (s, requestOf s.cfg.toParams (n.truncate v))) ∨
    s.memWrite addr n v = .ok (s.busStore (s.offset addr) n v, .normal) ∨
    s.memWrite addr n v = .error ⟨.storeAccessFault, addr⟩ := by
  cases hp : storePort s.cfg.toParams addr with
  | some p =>
    have h := State.memWrite_port s addr n v p hp
    cases p with
    | uart => exact .inl ⟨_, h⟩
    | matchL => exact .inr (.inl ⟨_, h⟩)
    | matchH => exact .inr (.inl ⟨_, h⟩)
    | syscon =>
      refine .inr (.inr (.inl ⟨?_, h⟩))
      by_contra hne
      simp only [storePort] at hp
      repeat' split at hp
      all_goals contradiction
  | none =>
    by_cases h : s.offset addr + n.bytes ≤ s.cfg.dramSize
    · exact .inr (.inr (.inr (.inl (State.memWrite_ram s addr n v hp h))))
    · exact .inr (.inr (.inr (.inr (State.memWrite_fault s addr n v hp (by omega)))))

/-! ### Loads, stores, atomics: everything each can do -/

theorem State.loadTo_cases (s : State) (rd : Reg) (addr : Word) (n : Width) (f : Word → Word) :
    (∃ v t, (t = s ∨ t = s.pollKeyboard ∨ t = s.pollKeyboard.takeKey) ∧ s.loadTo rd addr n f = t.writeback rd v) ∨
    s.loadTo rd addr n f = s.raise ⟨.loadAccessFault, addr⟩ := by
  rcases State.memRead_cases s addr n with ⟨v, t, h, ht⟩ | h
  · exact .inl ⟨f v, t, ht, by simp only [State.loadTo, h]⟩
  · exact .inr (by simp only [State.loadTo, h])

theorem State.storeFrom_cases (s : State) (addr : Word) (n : Width) (v : Word) :
    (∃ b, s.storeFrom addr n v = (s.emit (.consoleChar b)).retire) ∨
    (∃ m, s.storeFrom addr n v = ({ s with timermatch := m } : State).retire) ∨
    (addr = s.cfg.sysconAddr ∧ s.storeFrom addr n v = s.commit (requestOf s.cfg.toParams (n.truncate v)) (s.pc + 4)) ∨
    s.storeFrom addr n v = (s.busStore (s.offset addr) n v).retire ∨
    s.storeFrom addr n v = s.raise ⟨.storeAccessFault, addr⟩ := by
  rcases State.memWrite_cases s addr n v with ⟨b, h⟩ | ⟨m, h⟩ | ⟨ha, h⟩ | h | h
  · exact .inl ⟨b, by simp only [State.storeFrom, h]; rfl⟩
  · exact .inr (.inl ⟨m, by simp only [State.storeFrom, h]; rfl⟩)
  · exact .inr (.inr (.inl ⟨ha, by simp only [State.storeFrom, h]⟩))
  · exact .inr (.inr (.inr (.inl (by simp only [State.storeFrom, h]; rfl))))
  · exact .inr (.inr (.inr (.inr (by simp only [State.storeFrom, h]))))

theorem State.amo_ram (s : State) (rd rs1 rs2 : Reg) (f : Word → Word → Word)
    (h : s.offset (s.x rs1) + 4 ≤ s.cfg.dramSize) :
    s.amo rd rs1 rs2 f =
      (s.busStore (s.offset (s.x rs1)) .word (f (s.busLoad (s.offset (s.x rs1)) .word) (s.x rs2))).writeback rd
        (s.busLoad (s.offset (s.x rs1)) .word) := by
  simp [State.amo, State.atomicWriteFault, State.inRam_eq, Width.bytes, h]

theorem State.amo_fault (s : State) (rd rs1 rs2 : Reg) (f : Word → Word → Word)
    (h : s.offset (s.x rs1) + 4 > s.cfg.dramSize) : s.amo rd rs1 rs2 f = s.raise ⟨.storeAccessFault, s.x rs1⟩ := by
  have : ¬ s.offset (s.x rs1) + 4 ≤ s.cfg.dramSize := by omega
  simp [State.amo, State.atomicWriteFault, State.inRam_eq, Width.bytes, this]

theorem State.amo_cases (s : State) (rd rs1 rs2 : Reg) (f : Word → Word → Word) :
    (∃ v w, s.amo rd rs1 rs2 f = (s.busStore (s.offset (s.x rs1)) .word w).writeback rd v) ∨
    s.amo rd rs1 rs2 f = s.raise ⟨.storeAccessFault, s.x rs1⟩ := by
  by_cases h : s.offset (s.x rs1) + 4 ≤ s.cfg.dramSize
  · exact .inl ⟨_, _, State.amo_ram s rd rs1 rs2 f h⟩
  · exact .inr (State.amo_fault s rd rs1 rs2 f (by omega))

theorem State.loadReserved_ram (s : State) (rd rs1 : Reg) (h : s.offset (s.x rs1) + 4 ≤ s.cfg.dramSize) :
    s.loadReserved rd rs1 = (s.reserve (s.x rs1)).writeback rd (s.busLoad (s.offset (s.x rs1)) .word) := by
  simp [State.loadReserved, State.atomicReadFault, State.inRam_eq, Width.bytes, h]

theorem State.loadReserved_fault (s : State) (rd rs1 : Reg) (h : s.offset (s.x rs1) + 4 > s.cfg.dramSize) :
    s.loadReserved rd rs1 = s.raise ⟨.loadAccessFault, s.x rs1⟩ := by
  have : ¬ s.offset (s.x rs1) + 4 ≤ s.cfg.dramSize := by omega
  simp [State.loadReserved, State.atomicReadFault, State.inRam_eq, Width.bytes, this]

theorem State.loadReserved_cases (s : State) (rd rs1 : Reg) :
    (∃ v, s.loadReserved rd rs1 = (s.reserve (s.x rs1)).writeback rd v) ∨
    s.loadReserved rd rs1 = s.raise ⟨.loadAccessFault, s.x rs1⟩ := by
  by_cases h : s.offset (s.x rs1) + 4 ≤ s.cfg.dramSize
  · exact .inl ⟨_, State.loadReserved_ram s rd rs1 h⟩
  · exact .inr (State.loadReserved_fault s rd rs1 (by omega))

theorem State.storeConditional_success (s : State) (rd rs1 rs2 : Reg) (h : s.offset (s.x rs1) + 4 ≤ s.cfg.dramSize)
    (hv : s.resvValid = true) (ha : s.resvAddr = s.x rs1) :
    s.storeConditional rd rs1 rs2 =
      (s.busStore (s.offset (s.x rs1)) .word (s.x rs2)).clearReservation.writeback rd 0 := by
  simp [State.storeConditional, State.atomicWriteFault, State.inRam_eq, Width.bytes, h, State.reservationHeld, hv, ha]

theorem State.storeConditional_failure (s : State) (rd rs1 rs2 : Reg) (h : s.offset (s.x rs1) + 4 ≤ s.cfg.dramSize)
    (hr : ¬ (s.resvValid = true ∧ s.resvAddr = s.x rs1)) :
    s.storeConditional rd rs1 rs2 = s.clearReservation.writeback rd 1 := by
  have : s.reservationHeld (s.x rs1) = false := by
    simpa [State.reservationHeld] using hr
  simp [State.storeConditional, State.atomicWriteFault, State.inRam_eq, Width.bytes, h, this]

theorem State.storeConditional_fault (s : State) (rd rs1 rs2 : Reg) (h : s.offset (s.x rs1) + 4 > s.cfg.dramSize) :
    s.storeConditional rd rs1 rs2 = s.raise ⟨.storeAccessFault, s.x rs1⟩ := by
  have : ¬ s.offset (s.x rs1) + 4 ≤ s.cfg.dramSize := by omega
  simp [State.storeConditional, State.atomicWriteFault, State.inRam_eq, Width.bytes, this]

theorem State.storeConditional_cases (s : State) (rd rs1 rs2 : Reg) :
    s.storeConditional rd rs1 rs2 =
      (s.busStore (s.offset (s.x rs1)) .word (s.x rs2)).clearReservation.writeback rd 0 ∨
    s.storeConditional rd rs1 rs2 = s.clearReservation.writeback rd 1 ∨
    s.storeConditional rd rs1 rs2 = s.raise ⟨.storeAccessFault, s.x rs1⟩ := by
  by_cases h : s.offset (s.x rs1) + 4 ≤ s.cfg.dramSize
  · by_cases hr : s.resvValid = true ∧ s.resvAddr = s.x rs1
    · exact .inl (State.storeConditional_success s rd rs1 rs2 h hr.1 hr.2)
    · exact .inr (.inl (State.storeConditional_failure s rd rs1 rs2 h hr))
  · exact .inr (.inr (State.storeConditional_fault s rd rs1 rs2 (by omega)))

/-! ### CSRs -/

/-- What a CSR read can do to the state: only the keyboard (R235). -/
theorem State.csrRead_frame (s : State) (n : CsrNum) :
    (s.csrRead n).2 = s ∨ (s.csrRead n).2 = s.pollKeyboard ∨ (s.csrRead n).2 = s.pollKeyboard.takeKey := by
  unfold State.csrRead
  cases csrNamed n <;>
    simp only [State.csrReadNamed, State.readKey, State.readKeyStatus, true_or, or_true]
  split <;> simp

/-- What a CSR write can do to the state: the CSRs software owns and the trap CSRs, the three fields of mstatus, at most one console
event (R236). -/
theorem State.csrWrite_frame (s : State) (n : CsrNum) (v : Word) :
    let t := s.csrWrite n v
    ∃ es : List ConsoleEvent, es.length ≤ 1 ∧
      t =
        { s with
          statusMPP := t.statusMPP, statusMPIE := t.statusMPIE, statusMIE := t.statusMIE, mie := t.mie, mtvec := t.mtvec
          mscratch := t.mscratch, mepc := t.mepc, mcause := t.mcause, mtval := t.mtval, console := s.console ++ es } := by
  unfold State.csrWrite
  cases csrNamed n
  case decimalOut => exact ⟨[.consoleDecimal v], Nat.le_refl _, rfl⟩
  case hexOut => exact ⟨[.consoleHex v], Nat.le_refl _, rfl⟩
  case rawOut => exact ⟨[.consoleRaw (v.extractLsb' 0 8)], Nat.le_refl _, rfl⟩
  case charOut => exact ⟨[.consoleChar (v.extractLsb' 0 8)], Nat.le_refl _, rfl⟩
  all_goals
    refine ⟨[], Nat.zero_le _, ?_⟩
    rw [List.append_nil]
    rfl

/-- What a CSR instruction does: perhaps a read, perhaps a write, then the register (R232). -/
theorem State.csrAccess_cases (s : State) (rd : Reg) (n : CsrNum) (reads writes : Bool) (f : Word → Word) :
    ∃ (old : Word) (s1 s2 : State), (old, s1) = (if reads then s.csrRead n else (0, s)) ∧
      s2 = (if writes then s1.csrWrite n (f old) else s1) ∧ s.csrAccess rd n reads writes f = s2.writeback rd old :=
  ⟨_, _, _, rfl, rfl, rfl⟩

/-! ### The fetch -/

/-- A fetch gives an instruction of the word at the pc, or raises one of the three exceptions of a fetch (R44, R93). -/
theorem State.fetchInstr_cases (s : State) :
    (∃ w i, s.fetchWord s.pc = .ok w ∧ decodeWord w = .ok i ∧ s.fetchInstr = .ok i) ∨
    (∃ w e, s.fetchWord s.pc = .ok w ∧ decodeWord w = .error e ∧ s.fetchInstr = .error ⟨.illegalInstruction, w⟩) ∨
    (∃ r, s.fetchWord s.pc = .error r ∧ s.fetchInstr = .error r ∧
      (r = ⟨.instrAccessFault, s.pc⟩ ∨ r = ⟨.instrAddrMisaligned, s.pc⟩)) := by
  unfold State.fetchInstr
  cases h : s.fetchWord s.pc with
  | error r =>
    refine .inr (.inr ⟨r, rfl, rfl, ?_⟩)
    simp only [State.fetchWord] at h
    split at h
    · cases h
      exact .inl rfl
    · split at h
      · cases h
        exact .inr rfl
      · cases h
  | ok w =>
    cases hd : decodeWord w with
    | ok i => exact .inl ⟨w, i, rfl, hd, by simp [hd]⟩
    | error e => exact .inr (.inl ⟨w, e, rfl, hd, by simp [hd]⟩)

/-! ### The host's turn -/

/-- `AdvanceTime` between two steps (R272). -/
theorem State.hostInput_advanceTime_between (s : State) (d : Nat) (h : s.stepTaken = true) :
    s.hostInput (.advanceTime d) = s.advanceTime d := if_pos h

/-- Before the first step of a run there is no `AdvanceTime` (R295). -/
theorem State.hostInput_advanceTime_first (s : State) (d : Nat) (h : s.stepTaken = false) :
    s.hostInput (.advanceTime d) = s := if_neg (by simp [h])

/-- The host's acts change cycle, the keyboard and the stream only, and cycle only between two steps of a run. -/
theorem State.hostInputs_frame : ∀ (acts : List HostInput) (s : State),
    ∃ (c : BitVec 64) (k : List Byte) (closed : Bool), (s.stepTaken = false → c = s.cycle) ∧
      (s.inputClosed = true → closed = true) ∧
      acts.foldl State.hostInput s = { s with cycle := c, kbd := k, inputClosed := closed }
  | [], s => ⟨s.cycle, s.kbd, s.inputClosed, fun _ => rfl, id, rfl⟩
  | .advanceTime d :: acts, s => by
    rw [List.foldl_cons]
    rcases Bool.eq_false_or_eq_true s.stepTaken with h | h
    · rw [State.hostInput_advanceTime_between s d h]
      obtain ⟨c, k, closed, -, hi, he⟩ := State.hostInputs_frame acts (s.advanceTime d)
      exact ⟨c, k, closed, fun hf => by simp [h] at hf, hi, he⟩
    · rw [State.hostInput_advanceTime_first s d h]
      exact State.hostInputs_frame acts s
  | .keyTyped b :: acts, s =>
    let ⟨c, k, closed, hc, hi, he⟩ := State.hostInputs_frame acts (s.hostInput (.keyTyped b))
    ⟨c, k, closed, hc, hi, he⟩
  | .closeInput :: acts, s =>
    let ⟨c, k, closed, hc, hi, he⟩ := State.hostInputs_frame acts (s.hostInput .closeInput)
    ⟨c, k, closed, hc, fun _ => hi rfl, he⟩

/-- The host's turn changes cycle, the keyboard, the stream and the schedule only, and not cycle before the first step of a run; the
step is then taken. -/
theorem State.hostTurn_frame (s : State) :
    ∃ (c : BitVec 64) (k : List Byte) (closed : Bool), (s.stepTaken = false → c = s.cycle) ∧
      (s.inputClosed = true → closed = true) ∧
      s.hostTurn =
        { s with cycle := c, kbd := k, inputClosed := closed, stepTaken := true, hostInputs := s.hostInputs.tail } := by
  obtain ⟨c, k, closed, hc, h, he⟩ :=
    State.hostInputs_frame (s.hostInputs.headD []) { s with hostInputs := s.hostInputs.tail }
  exact ⟨c, k, closed, hc, h, congrArg (fun t : State => { t with stepTaken := true }) he⟩

@[simp] theorem State.hostTurn_stepTaken (s : State) : s.hostTurn.stepTaken = true := rfl

end Sys2Proof.Machine
end

