-- ==== Sys2Proof/Laws/Exec.lean ====
section
/-! SUPPORT. What an instruction can do, said once for all 68: the cases every whole-machine rule is read off from. -/

namespace Sys2Proof.Machine

/-- Every instruction answers a next state in every state (R233, R301). -/
theorem exec_next (i : Instr) (s : State) : ∃ t, exec i s = .next t := by
  cases i <;> exact ⟨_, rfl⟩

/-- The instructions that touch memory, the reservation or the trap state without a trap. -/
def effectMnemonics : List String := loadMnemonics ++ storeMnemonics ++ amoMnemonics ++ ["LR.W", "SC.W", "MRET"]

/-- The state a read by LR.W, a load or a CSR instruction continues in: as it was, polled, or with the first key taken. -/
def ReadFrom (s u : State) : Prop := u = s ∨ u = s.pollKeyboard ∨ u = s.pollKeyboard.takeKey

/-- Such a read changes the latch and the keyboard only. -/
theorem ReadFrom.frame {s u : State} (h : ReadFrom s u) : u = { s with eofLatch := u.eofLatch, kbd := u.kbd } := by
  rcases h with h | h | h <;> subst h <;> rfl

/-- The latch stays set, and is set only by a closed stream (R53). -/
theorem ReadFrom.eofLatch {s u : State} (h : ReadFrom s u) : u.eofLatch = s.eofLatch ∨ u.eofLatch = (s.eofLatch || s.inputClosed) := by
  rcases h with h | h | h <;> subst h <;> simp

/-- Everything a CSR instruction can change: the keyboard by its read, the CSRs and the console by its write, one register. -/
theorem State.csrAccess_frame (s : State) (rd : Reg) (n : CsrNum) (reads writes : Bool) (f : Word → Word) :
    let t := s.csrAccess rd n reads writes f
    ∃ (u : State) (es : List ConsoleEvent) (old : Word), ReadFrom s u ∧ es.length ≤ 1 ∧
      t =
        State.writeback
          { u with
            statusMPP := t.statusMPP, statusMPIE := t.statusMPIE, statusMIE := t.statusMIE, mie := t.mie, mtvec := t.mtvec
            mscratch := t.mscratch, mepc := t.mepc, mcause := t.mcause, mtval := t.mtval, console := u.console ++ es }
          rd old := by
  intro t
  obtain ⟨old, s1, s2, h1, h2, h3⟩ := State.csrAccess_cases s rd n reads writes f
  have hs1 : ReadFrom s s1 := by
    cases reads <;> simp at h1
    · exact .inl h1.2
    · have := State.csrRead_frame s n
      rw [← h1] at this
      exact this
  have ht : t = s2.writeback rd old := h3
  cases writes <;> simp at h2
  · subst h2
    refine ⟨s2, [], old, hs1, Nat.zero_le _, ?_⟩
    rw [ht, List.append_nil]
    rfl
  · obtain ⟨es, hl, he⟩ := State.csrWrite_frame s1 n (f old)
    rw [← h2] at he
    refine ⟨s1, es, old, hs1, hl, ?_⟩
    rw [ht]
    conv_lhs => rw [he]
    rfl

/-- Everything an instruction can do. -/
inductive ExecCase (i : Instr) (s : State) : State → Prop where
  /-- A register write and a new pc: integer computation, multiply and divide, jumps. -/
  | register (rd : Reg) (v p : Word) (hm : i.mnemonic ∉ effectMnemonics) :
      ExecCase i s ((s.setX rd v).commit .normal p)
  /-- A new pc only: branches, fences, WFI. -/
  | pcOnly (p : Word) (hm : i.mnemonic ∉ effectMnemonics) :
      ExecCase i s (s.commit .normal p)
  /-- A load that completes. -/
  | load (u : State) (rd : Reg) (v : Word) (hu : ReadFrom s u) (hm : i.mnemonic ∈ loadMnemonics) : ExecCase i s (u.writeback rd v)
  /-- A load that faults. -/
  | loadFault (addr : Word) (hm : i.mnemonic ∈ loadMnemonics) : ExecCase i s (s.raise ⟨.loadAccessFault, addr⟩)
  /-- A store, in one of the ways of `State.storeFrom_cases`. -/
  | store (rs1 rs2 : Reg) (imm : BitVec 12) (n : Width)
      (hi : (n = .byte ∧ i = .sb rs1 rs2 imm) ∨ (n = .half ∧ i = .sh rs1 rs2 imm) ∨ (n = .word ∧ i = .sw rs1 rs2 imm)) :
      ExecCase i s (s.storeFrom (s.storeAddr rs1 imm) n (s.x rs2))
  /-- LR.W. -/
  | loadReserved (aq rl : Bool) (rd rs1 : Reg) (hi : i = .lrW aq rl rd rs1) : ExecCase i s (s.loadReserved rd rs1)
  /-- SC.W. -/
  | storeConditional (aq rl : Bool) (rd rs1 rs2 : Reg) (hi : i = .scW aq rl rd rs1 rs2) :
      ExecCase i s (s.storeConditional rd rs1 rs2)
  /-- An AMO. -/
  | amo (rd rs1 rs2 : Reg) (f : Word → Word → Word) (hm : i.mnemonic ∈ amoMnemonics) : ExecCase i s (s.amo rd rs1 rs2 f)
  /-- ECALL. -/
  | ecall (hi : i = .ecall) : ExecCase i s (s.raise ⟨.envCall s.priv, 0⟩)
  /-- EBREAK. -/
  | ebreak (hi : i = .ebreak) : ExecCase i s (s.raise ⟨.breakpoint, s.pc⟩)
  /-- MRET. -/
  | mret (hi : i = .mret) : ExecCase i s (s.trapReturn.commit .normal s.mepc)
  /-- A CSR instruction. -/
  | csr (rd : Reg) (n : CsrNum) (reads writes : Bool) (f : Word → Word)
      (hm : i.mnemonic ∉ effectMnemonics) :
      ExecCase i s (s.csrAccess rd n reads writes f)

theorem ExecCase.ofLoad {i : Instr} (s : State) (rd : Reg) (addr : Word) (n : Width) (f : Word → Word)
    (hm : i.mnemonic ∈ loadMnemonics) : ExecCase i s (s.loadTo rd addr n f) := by
  rcases State.loadTo_cases s rd addr n f with ⟨v, t, ht, h⟩ | h
  · rw [h]
    exact .load t rd v ht hm
  · rw [h]
    exact .loadFault addr hm

theorem ExecCase.ofBranch {i : Instr} (s : State) (cond : Bool) (imm : BitVec 13)
    (hm : i.mnemonic ∉ effectMnemonics) :
    ExecCase i s (s.branch cond imm) := by
  cases cond
  · exact .pcOnly _ hm
  · exact .pcOnly _ hm

/-- An instruction that answers a next state is in one of the cases. -/
theorem exec_cases {i : Instr} {s t : State} (h : exec i s = .next t) : ExecCase i s t := by
  cases i <;> cases h
  case lui => exact .register _ _ _ (by change "LUI" ∉ effectMnemonics; decide)
  case auipc => exact .register _ _ _ (by change "AUIPC" ∉ effectMnemonics; decide)
  case addi => exact .register _ _ _ (by change "ADDI" ∉ effectMnemonics; decide)
  case slti => exact .register _ _ _ (by change "SLTI" ∉ effectMnemonics; decide)
  case sltiu => exact .register _ _ _ (by change "SLTIU" ∉ effectMnemonics; decide)
  case xori => exact .register _ _ _ (by change "XORI" ∉ effectMnemonics; decide)
  case ori => exact .register _ _ _ (by change "ORI" ∉ effectMnemonics; decide)
  case andi => exact .register _ _ _ (by change "ANDI" ∉ effectMnemonics; decide)
  case slli => exact .register _ _ _ (by change "SLLI" ∉ effectMnemonics; decide)
  case srli => exact .register _ _ _ (by change "SRLI" ∉ effectMnemonics; decide)
  case srai => exact .register _ _ _ (by change "SRAI" ∉ effectMnemonics; decide)
  case add => exact .register _ _ _ (by change "ADD" ∉ effectMnemonics; decide)
  case sub => exact .register _ _ _ (by change "SUB" ∉ effectMnemonics; decide)
  case sll => exact .register _ _ _ (by change "SLL" ∉ effectMnemonics; decide)
  case slt => exact .register _ _ _ (by change "SLT" ∉ effectMnemonics; decide)
  case sltu => exact .register _ _ _ (by change "SLTU" ∉ effectMnemonics; decide)
  case xor => exact .register _ _ _ (by change "XOR" ∉ effectMnemonics; decide)
  case srl => exact .register _ _ _ (by change "SRL" ∉ effectMnemonics; decide)
  case sra => exact .register _ _ _ (by change "SRA" ∉ effectMnemonics; decide)
  case or => exact .register _ _ _ (by change "OR" ∉ effectMnemonics; decide)
  case and => exact .register _ _ _ (by change "AND" ∉ effectMnemonics; decide)
  case jal => exact .register _ _ _ (by change "JAL" ∉ effectMnemonics; decide)
  case jalr => exact .register _ _ _ (by change "JALR" ∉ effectMnemonics; decide)
  case beq => exact ExecCase.ofBranch _ _ _ (by change "BEQ" ∉ effectMnemonics; decide)
  case bne => exact ExecCase.ofBranch _ _ _ (by change "BNE" ∉ effectMnemonics; decide)
  case blt => exact ExecCase.ofBranch _ _ _ (by change "BLT" ∉ effectMnemonics; decide)
  case bge => exact ExecCase.ofBranch _ _ _ (by change "BGE" ∉ effectMnemonics; decide)
  case bltu => exact ExecCase.ofBranch _ _ _ (by change "BLTU" ∉ effectMnemonics; decide)
  case bgeu => exact ExecCase.ofBranch _ _ _ (by change "BGEU" ∉ effectMnemonics; decide)
  case lb => exact ExecCase.ofLoad _ _ _ _ _ (by change "LB" ∈ loadMnemonics; decide)
  case lh => exact ExecCase.ofLoad _ _ _ _ _ (by change "LH" ∈ loadMnemonics; decide)
  case lw => exact ExecCase.ofLoad _ _ _ _ _ (by change "LW" ∈ loadMnemonics; decide)
  case lbu => exact ExecCase.ofLoad _ _ _ _ _ (by change "LBU" ∈ loadMnemonics; decide)
  case lhu => exact ExecCase.ofLoad _ _ _ _ _ (by change "LHU" ∈ loadMnemonics; decide)
  case sb => exact .store _ _ _ _ (.inl ⟨rfl, rfl⟩)
  case sh => exact .store _ _ _ _ (.inr (.inl ⟨rfl, rfl⟩))
  case sw => exact .store _ _ _ _ (.inr (.inr ⟨rfl, rfl⟩))
  case mul => exact .register _ _ _ (by change "MUL" ∉ effectMnemonics; decide)
  case mulh => exact .register _ _ _ (by change "MULH" ∉ effectMnemonics; decide)
  case mulhsu => exact .register _ _ _ (by change "MULHSU" ∉ effectMnemonics; decide)
  case mulhu => exact .register _ _ _ (by change "MULHU" ∉ effectMnemonics; decide)
  case div => exact .register _ _ _ (by change "DIV" ∉ effectMnemonics; decide)
  case divu => exact .register _ _ _ (by change "DIVU" ∉ effectMnemonics; decide)
  case rem => exact .register _ _ _ (by change "REM" ∉ effectMnemonics; decide)
  case remu => exact .register _ _ _ (by change "REMU" ∉ effectMnemonics; decide)
  case lrW => exact .loadReserved _ _ _ _ rfl
  case scW => exact .storeConditional _ _ _ _ _ rfl
  case amoswapW => exact .amo _ _ _ _ (by change "AMOSWAP.W" ∈ amoMnemonics; decide)
  case amoaddW => exact .amo _ _ _ _ (by change "AMOADD.W" ∈ amoMnemonics; decide)
  case amoxorW => exact .amo _ _ _ _ (by change "AMOXOR.W" ∈ amoMnemonics; decide)
  case amoandW => exact .amo _ _ _ _ (by change "AMOAND.W" ∈ amoMnemonics; decide)
  case amoorW => exact .amo _ _ _ _ (by change "AMOOR.W" ∈ amoMnemonics; decide)
  case amominW => exact .amo _ _ _ _ (by change "AMOMIN.W" ∈ amoMnemonics; decide)
  case amomaxW => exact .amo _ _ _ _ (by change "AMOMAX.W" ∈ amoMnemonics; decide)
  case amominuW => exact .amo _ _ _ _ (by change "AMOMINU.W" ∈ amoMnemonics; decide)
  case amomaxuW => exact .amo _ _ _ _ (by change "AMOMAXU.W" ∈ amoMnemonics; decide)
  case fence => exact .pcOnly _ (by change "FENCE" ∉ effectMnemonics; decide)
  case fenceI => exact .pcOnly _ (by change "FENCE.I" ∉ effectMnemonics; decide)
  case ecall => exact .ecall rfl
  case ebreak => exact .ebreak rfl
  case mret => exact .mret rfl
  case wfi => exact .pcOnly _ (by change "WFI" ∉ effectMnemonics; decide)
  case csrrw => exact .csr _ _ _ _ _ (by change "CSRRW" ∉ effectMnemonics; decide)
  case csrrs => exact .csr _ _ _ _ _ (by change "CSRRS" ∉ effectMnemonics; decide)
  case csrrc => exact .csr _ _ _ _ _ (by change "CSRRC" ∉ effectMnemonics; decide)
  case csrrwi => exact .csr _ _ _ _ _ (by change "CSRRWI" ∉ effectMnemonics; decide)
  case csrrsi => exact .csr _ _ _ _ _ (by change "CSRRSI" ∉ effectMnemonics; decide)
  case csrrci => exact .csr _ _ _ _ _ (by change "CSRRCI" ∉ effectMnemonics; decide)

end Sys2Proof.Machine
end

