-- ==== Sys2Proof/Laws/PerInstr.lean ====
section
/-! SUPPORT. What holds of every instruction as syntax, one lemma a constructor. -/

namespace Sys2Proof.Laws.LowBits

/-- The two low bits of every instruction's word are `11` (R70). -/
def Statement (i : Instr) : Prop := (encode i).extractLsb' 0 2 = 0b11

/-- They are those of the major opcode. -/
theorem of_opcode {i : Instr} {op : BitVec 7} (h : opcodeOf (encode i) = op) (h2 : op.extractLsb' 0 2 = 0b11) : Statement i :=
  low_two_of_opcode h h2

theorem lui (rd : Reg) (imm : BitVec 20) : Statement (.lui rd imm) :=
  of_opcode (opcodeOf_uType _ _ _) rfl

theorem auipc (rd : Reg) (imm : BitVec 20) : Statement (.auipc rd imm) :=
  of_opcode (opcodeOf_uType _ _ _) rfl

theorem addi (rd rs1 : Reg) (imm : BitVec 12) : Statement (.addi rd rs1 imm) :=
  of_opcode (opcodeOf_iType _ _ _ _ _) rfl

theorem slti (rd rs1 : Reg) (imm : BitVec 12) : Statement (.slti rd rs1 imm) :=
  of_opcode (opcodeOf_iType _ _ _ _ _) rfl

theorem sltiu (rd rs1 : Reg) (imm : BitVec 12) : Statement (.sltiu rd rs1 imm) :=
  of_opcode (opcodeOf_iType _ _ _ _ _) rfl

theorem xori (rd rs1 : Reg) (imm : BitVec 12) : Statement (.xori rd rs1 imm) :=
  of_opcode (opcodeOf_iType _ _ _ _ _) rfl

theorem ori (rd rs1 : Reg) (imm : BitVec 12) : Statement (.ori rd rs1 imm) :=
  of_opcode (opcodeOf_iType _ _ _ _ _) rfl

theorem andi (rd rs1 : Reg) (imm : BitVec 12) : Statement (.andi rd rs1 imm) :=
  of_opcode (opcodeOf_iType _ _ _ _ _) rfl

theorem slli (rd rs1 : Reg) (shamt : BitVec 5) : Statement (.slli rd rs1 shamt) :=
  of_opcode (opcodeOf_shiftType _ _ _ _ _ _) rfl

theorem srli (rd rs1 : Reg) (shamt : BitVec 5) : Statement (.srli rd rs1 shamt) :=
  of_opcode (opcodeOf_shiftType _ _ _ _ _ _) rfl

theorem srai (rd rs1 : Reg) (shamt : BitVec 5) : Statement (.srai rd rs1 shamt) :=
  of_opcode (opcodeOf_shiftType _ _ _ _ _ _) rfl

theorem add (rd rs1 rs2 : Reg) : Statement (.add rd rs1 rs2) :=
  of_opcode (opcodeOf_rType _ _ _ _ _ _) rfl

theorem sub (rd rs1 rs2 : Reg) : Statement (.sub rd rs1 rs2) :=
  of_opcode (opcodeOf_rType _ _ _ _ _ _) rfl

theorem sll (rd rs1 rs2 : Reg) : Statement (.sll rd rs1 rs2) :=
  of_opcode (opcodeOf_rType _ _ _ _ _ _) rfl

theorem slt (rd rs1 rs2 : Reg) : Statement (.slt rd rs1 rs2) :=
  of_opcode (opcodeOf_rType _ _ _ _ _ _) rfl

theorem sltu (rd rs1 rs2 : Reg) : Statement (.sltu rd rs1 rs2) :=
  of_opcode (opcodeOf_rType _ _ _ _ _ _) rfl

theorem xor (rd rs1 rs2 : Reg) : Statement (.xor rd rs1 rs2) :=
  of_opcode (opcodeOf_rType _ _ _ _ _ _) rfl

theorem srl (rd rs1 rs2 : Reg) : Statement (.srl rd rs1 rs2) :=
  of_opcode (opcodeOf_rType _ _ _ _ _ _) rfl

theorem sra (rd rs1 rs2 : Reg) : Statement (.sra rd rs1 rs2) :=
  of_opcode (opcodeOf_rType _ _ _ _ _ _) rfl

theorem or (rd rs1 rs2 : Reg) : Statement (.or rd rs1 rs2) :=
  of_opcode (opcodeOf_rType _ _ _ _ _ _) rfl

theorem and (rd rs1 rs2 : Reg) : Statement (.and rd rs1 rs2) :=
  of_opcode (opcodeOf_rType _ _ _ _ _ _) rfl

theorem jal (rd : Reg) (imm : BitVec 21) : Statement (.jal rd imm) :=
  of_opcode (opcodeOf_jType _ _ _) rfl

theorem jalr (rd rs1 : Reg) (imm : BitVec 12) : Statement (.jalr rd rs1 imm) :=
  of_opcode (opcodeOf_iType _ _ _ _ _) rfl

theorem beq (rs1 rs2 : Reg) (imm : BitVec 13) : Statement (.beq rs1 rs2 imm) :=
  of_opcode (opcodeOf_bType _ _ _ _ _) rfl

theorem bne (rs1 rs2 : Reg) (imm : BitVec 13) : Statement (.bne rs1 rs2 imm) :=
  of_opcode (opcodeOf_bType _ _ _ _ _) rfl

theorem blt (rs1 rs2 : Reg) (imm : BitVec 13) : Statement (.blt rs1 rs2 imm) :=
  of_opcode (opcodeOf_bType _ _ _ _ _) rfl

theorem bge (rs1 rs2 : Reg) (imm : BitVec 13) : Statement (.bge rs1 rs2 imm) :=
  of_opcode (opcodeOf_bType _ _ _ _ _) rfl

theorem bltu (rs1 rs2 : Reg) (imm : BitVec 13) : Statement (.bltu rs1 rs2 imm) :=
  of_opcode (opcodeOf_bType _ _ _ _ _) rfl

theorem bgeu (rs1 rs2 : Reg) (imm : BitVec 13) : Statement (.bgeu rs1 rs2 imm) :=
  of_opcode (opcodeOf_bType _ _ _ _ _) rfl

theorem lb (rd rs1 : Reg) (imm : BitVec 12) : Statement (.lb rd rs1 imm) :=
  of_opcode (opcodeOf_iType _ _ _ _ _) rfl

theorem lh (rd rs1 : Reg) (imm : BitVec 12) : Statement (.lh rd rs1 imm) :=
  of_opcode (opcodeOf_iType _ _ _ _ _) rfl

theorem lw (rd rs1 : Reg) (imm : BitVec 12) : Statement (.lw rd rs1 imm) :=
  of_opcode (opcodeOf_iType _ _ _ _ _) rfl

theorem lbu (rd rs1 : Reg) (imm : BitVec 12) : Statement (.lbu rd rs1 imm) :=
  of_opcode (opcodeOf_iType _ _ _ _ _) rfl

theorem lhu (rd rs1 : Reg) (imm : BitVec 12) : Statement (.lhu rd rs1 imm) :=
  of_opcode (opcodeOf_iType _ _ _ _ _) rfl

theorem sb (rs1 rs2 : Reg) (imm : BitVec 12) : Statement (.sb rs1 rs2 imm) :=
  of_opcode (opcodeOf_sType _ _ _ _ _) rfl

theorem sh (rs1 rs2 : Reg) (imm : BitVec 12) : Statement (.sh rs1 rs2 imm) :=
  of_opcode (opcodeOf_sType _ _ _ _ _) rfl

theorem sw (rs1 rs2 : Reg) (imm : BitVec 12) : Statement (.sw rs1 rs2 imm) :=
  of_opcode (opcodeOf_sType _ _ _ _ _) rfl

theorem mul (rd rs1 rs2 : Reg) : Statement (.mul rd rs1 rs2) :=
  of_opcode (opcodeOf_rType _ _ _ _ _ _) rfl

theorem mulh (rd rs1 rs2 : Reg) : Statement (.mulh rd rs1 rs2) :=
  of_opcode (opcodeOf_rType _ _ _ _ _ _) rfl

theorem mulhsu (rd rs1 rs2 : Reg) : Statement (.mulhsu rd rs1 rs2) :=
  of_opcode (opcodeOf_rType _ _ _ _ _ _) rfl

theorem mulhu (rd rs1 rs2 : Reg) : Statement (.mulhu rd rs1 rs2) :=
  of_opcode (opcodeOf_rType _ _ _ _ _ _) rfl

theorem div (rd rs1 rs2 : Reg) : Statement (.div rd rs1 rs2) :=
  of_opcode (opcodeOf_rType _ _ _ _ _ _) rfl

theorem divu (rd rs1 rs2 : Reg) : Statement (.divu rd rs1 rs2) :=
  of_opcode (opcodeOf_rType _ _ _ _ _ _) rfl

theorem rem (rd rs1 rs2 : Reg) : Statement (.rem rd rs1 rs2) :=
  of_opcode (opcodeOf_rType _ _ _ _ _ _) rfl

theorem remu (rd rs1 rs2 : Reg) : Statement (.remu rd rs1 rs2) :=
  of_opcode (opcodeOf_rType _ _ _ _ _ _) rfl

theorem lrW (aq rl : Bool) (rd rs1 : Reg) : Statement (.lrW aq rl rd rs1) :=
  of_opcode (opcodeOf_atomicType _ _ _ _ _ _) rfl

theorem scW (aq rl : Bool) (rd rs1 rs2 : Reg) : Statement (.scW aq rl rd rs1 rs2) :=
  of_opcode (opcodeOf_atomicType _ _ _ _ _ _) rfl

theorem amoswapW (aq rl : Bool) (rd rs1 rs2 : Reg) : Statement (.amoswapW aq rl rd rs1 rs2) :=
  of_opcode (opcodeOf_atomicType _ _ _ _ _ _) rfl

theorem amoaddW (aq rl : Bool) (rd rs1 rs2 : Reg) : Statement (.amoaddW aq rl rd rs1 rs2) :=
  of_opcode (opcodeOf_atomicType _ _ _ _ _ _) rfl

theorem amoxorW (aq rl : Bool) (rd rs1 rs2 : Reg) : Statement (.amoxorW aq rl rd rs1 rs2) :=
  of_opcode (opcodeOf_atomicType _ _ _ _ _ _) rfl

theorem amoandW (aq rl : Bool) (rd rs1 rs2 : Reg) : Statement (.amoandW aq rl rd rs1 rs2) :=
  of_opcode (opcodeOf_atomicType _ _ _ _ _ _) rfl

theorem amoorW (aq rl : Bool) (rd rs1 rs2 : Reg) : Statement (.amoorW aq rl rd rs1 rs2) :=
  of_opcode (opcodeOf_atomicType _ _ _ _ _ _) rfl

theorem amominW (aq rl : Bool) (rd rs1 rs2 : Reg) : Statement (.amominW aq rl rd rs1 rs2) :=
  of_opcode (opcodeOf_atomicType _ _ _ _ _ _) rfl

theorem amomaxW (aq rl : Bool) (rd rs1 rs2 : Reg) : Statement (.amomaxW aq rl rd rs1 rs2) :=
  of_opcode (opcodeOf_atomicType _ _ _ _ _ _) rfl

theorem amominuW (aq rl : Bool) (rd rs1 rs2 : Reg) : Statement (.amominuW aq rl rd rs1 rs2) :=
  of_opcode (opcodeOf_atomicType _ _ _ _ _ _) rfl

theorem amomaxuW (aq rl : Bool) (rd rs1 rs2 : Reg) : Statement (.amomaxuW aq rl rd rs1 rs2) :=
  of_opcode (opcodeOf_atomicType _ _ _ _ _ _) rfl

theorem fence (fm pred succ : BitVec 4) (rs1 rd : Reg) : Statement (.fence fm pred succ rs1 rd) :=
  of_opcode (opcodeOf_iType _ _ _ _ _) rfl

theorem fenceI (imm : BitVec 12) (rs1 rd : Reg) : Statement (.fenceI imm rs1 rd) :=
  of_opcode (opcodeOf_iType _ _ _ _ _) rfl

theorem ecall : Statement .ecall := of_opcode (op := 0b1110011) rfl rfl

theorem ebreak : Statement .ebreak := of_opcode (op := 0b1110011) rfl rfl

theorem mret : Statement .mret := of_opcode (op := 0b1110011) rfl rfl

theorem wfi : Statement .wfi := of_opcode (op := 0b1110011) rfl rfl

theorem csrrw (rd : Reg) (csr : CsrNum) (rs1 : Reg) : Statement (.csrrw rd csr rs1) :=
  of_opcode (opcodeOf_csrType _ _ _ _) rfl

theorem csrrs (rd : Reg) (csr : CsrNum) (rs1 : Reg) : Statement (.csrrs rd csr rs1) :=
  of_opcode (opcodeOf_csrType _ _ _ _) rfl

theorem csrrc (rd : Reg) (csr : CsrNum) (rs1 : Reg) : Statement (.csrrc rd csr rs1) :=
  of_opcode (opcodeOf_csrType _ _ _ _) rfl

theorem csrrwi (rd : Reg) (csr : CsrNum) (uimm : BitVec 5) : Statement (.csrrwi rd csr uimm) :=
  of_opcode (opcodeOf_csrImmType _ _ _ _) rfl

theorem csrrsi (rd : Reg) (csr : CsrNum) (uimm : BitVec 5) : Statement (.csrrsi rd csr uimm) :=
  of_opcode (opcodeOf_csrImmType _ _ _ _) rfl

theorem csrrci (rd : Reg) (csr : CsrNum) (uimm : BitVec 5) : Statement (.csrrci rd csr uimm) :=
  of_opcode (opcodeOf_csrImmType _ _ _ _) rfl

end Sys2Proof.Laws.LowBits
end

