-- ==== Sys2Proof/Tests/Slice0.lean ====
section
/-! SUPPORT. Tests: the well-formedness smoke, every constructor's decoding from a word of the spec, at most two small steps an
instruction with results of the spec, and a concrete state that meets the hypotheses of every statement that has some. -/

namespace Sys2Proof.Tests

open Sys2Proof.Machine

/-! ### Helpers -/

/-- The configuration of `95_test_vectors.md`: DRAM_SIZE `0x10000` and defaults, with numbers for the parameters that have none. -/
def cfg : Config :=
  { Params.default with
    dramSize := 0x10000, mtvecFallback := 0x1000, resultTrapped := 1, resultPowerOff := 2, resultReset := 3, valid := by decide }

/-- The state after reset in that configuration. -/
def start : State := { State.reset with cfg := cfg }

/-- The state after reset with some registers set. -/
def regs (l : List (Reg × Word)) : State := l.foldl (fun s p => s.setX p.1 p.2) start

/-- The state after one step that fetches `w`; the state itself if there is none. -/
def after (s : State) (w : Word) : State :=
  match step (s.placeWord w) with
  | .next t => t
  | .fault _ => s
  | .refused _ => s

/-- The memory of `95_test_vectors.md`: the word at an address. -/
def withWord (s : State) (addr v : Word) : State := s.busStore (s.offset addr) .word v

/-- The word at an address. -/
def wordAt (s : State) (addr : Word) : Word := s.busLoad (s.offset addr) .word

/-! ### Well-formedness: an ill-formed term for each check -/

theorem test_wellFormed_refuses_odd_jal :
    Instr.wellFormed (.jal 1 7) = false := by decide

theorem test_wellFormed_refuses_odd_beq :
    Instr.wellFormed (.beq 1 2 3) = false := by decide

theorem test_wellFormed_refuses_odd_bne :
    Instr.wellFormed (.bne 1 2 (-1)) = false := by decide

theorem test_wellFormed_refuses_odd_blt :
    Instr.wellFormed (.blt 1 2 5) = false := by decide

theorem test_wellFormed_refuses_odd_bge :
    Instr.wellFormed (.bge 1 2 9) = false := by decide

theorem test_wellFormed_refuses_odd_bltu :
    Instr.wellFormed (.bltu 1 2 0xFFF) = false := by decide

theorem test_wellFormed_refuses_odd_bgeu :
    Instr.wellFormed (.bgeu 1 2 1) = false := by decide

theorem test_wellFormed_accepts :
    Instr.wellFormed (.jal 1 (-8)) = true ∧ Instr.wellFormed (.bgeu 1 2 4094) = true ∧ Instr.wellFormed .ecall = true := by decide

/-! ### Decoding: bit by bit, one word a family -/

theorem test_decode_bits_addi :
    decodeWord (0b111111111111#12 ++ 0b00010#5 ++ 0b000#3 ++ 0b00001#5 ++ 0b0010011#7) = .ok (.addi 1 2 (-1)) := by decide

theorem test_decode_bits_sra :
    decodeWord (0b0100000#7 ++ 0b00011#5 ++ 0b00010#5 ++ 0b101#3 ++ 0b00001#5 ++ 0b0110011#7) = .ok (.sra 1 2 3) := by decide

theorem test_decode_bits_jal :
    decodeWord (0b1#1 ++ 0b1111111100#10 ++ 0b1#1 ++ 0b11111111#8 ++ 0b00101#5 ++ 0b1101111#7) = .ok (.jal 5 (-8)) := by decide

theorem test_decode_bits_bne :
    decodeWord (0b1#1 ++ 0b111111#6 ++ 0b00010#5 ++ 0b00001#5 ++ 0b001#3 ++ 0b1110#4 ++ 0b1#1 ++ 0b1100011#7) = .ok (.bne 1 2 (-4)) := by decide

theorem test_decode_bits_lhu :
    decodeWord (0b000000000010#12 ++ 0b00001#5 ++ 0b101#3 ++ 0b00011#5 ++ 0b0000011#7) = .ok (.lhu 3 1 2) := by decide

theorem test_decode_bits_sw :
    decodeWord (0b1111111#7 ++ 0b00001#5 ++ 0b00010#5 ++ 0b010#3 ++ 0b11100#5 ++ 0b0100011#7) = .ok (.sw 2 1 (-4)) := by decide

theorem test_decode_bits_rem :
    decodeWord (0b0000001#7 ++ 0b00010#5 ++ 0b00001#5 ++ 0b110#3 ++ 0b00011#5 ++ 0b0110011#7) = .ok (.rem 3 1 2) := by decide

theorem test_decode_bits_lrw :
    decodeWord (0b00010#5 ++ 0b1#1 ++ 0b0#1 ++ 0b00000#5 ++ 0b00001#5 ++ 0b010#3 ++ 0b00011#5 ++ 0b0101111#7) = .ok (.lrW true false 3 1) := by decide

theorem test_decode_bits_amomaxu :
    decodeWord (0b11100#5 ++ 0b0#1 ++ 0b1#1 ++ 0b00010#5 ++ 0b00001#5 ++ 0b010#3 ++ 0b00011#5 ++ 0b0101111#7) = .ok (.amomaxuW false true 3 1 2) := by decide

theorem test_decode_bits_csrrwi :
    decodeWord (0b001101000000#12 ++ 0b11111#5 ++ 0b101#3 ++ 0b00011#5 ++ 0b1110011#7) = .ok (.csrrwi 3 0x340 31) := by decide

/-! ### Decoding: every constructor, from an encoding of the spec -/

theorem test_decode_integer_immediate :
    decodeWord 0x123452B7 = .ok (.lui 5 0x12345) ∧
    decodeWord 0x00001297 = .ok (.auipc 5 1) ∧
    decodeWord 0x00550513 = .ok (.addi 10 10 5) ∧
    decodeWord 0xFFF12093 = .ok (.slti 1 2 (-1)) ∧
    decodeWord 0xFFF13093 = .ok (.sltiu 1 2 (-1)) ∧
    decodeWord 0xFFF14093 = .ok (.xori 1 2 (-1)) ∧
    decodeWord 0x70016093 = .ok (.ori 1 2 0x700) ∧
    decodeWord 0xFF017093 = .ok (.andi 1 2 (-16)) ∧
    decodeWord 0x01F11093 = .ok (.slli 1 2 31) ∧
    decodeWord 0x00415093 = .ok (.srli 1 2 4) ∧
    decodeWord 0x41F15093 = .ok (.srai 1 2 31) := by decide

theorem test_decode_integer_register :
    decodeWord 0x003100B3 = .ok (.add 1 2 3) ∧
    decodeWord 0x403100B3 = .ok (.sub 1 2 3) ∧
    decodeWord 0x003110B3 = .ok (.sll 1 2 3) ∧
    decodeWord 0x003120B3 = .ok (.slt 1 2 3) ∧
    decodeWord 0x003130B3 = .ok (.sltu 1 2 3) ∧
    decodeWord 0x003140B3 = .ok (.xor 1 2 3) ∧
    decodeWord 0x003150B3 = .ok (.srl 1 2 3) ∧
    decodeWord 0x403150B3 = .ok (.sra 1 2 3) ∧
    decodeWord 0x003160B3 = .ok (.or 1 2 3) ∧
    decodeWord 0x003170B3 = .ok (.and 1 2 3) := by decide

theorem test_decode_control_transfer :
    decodeWord 0x008000EF = .ok (.jal 1 8) ∧
    decodeWord 0x004100E7 = .ok (.jalr 1 2 4) ∧
    decodeWord 0x00208863 = .ok (.beq 1 2 16) ∧
    decodeWord 0xFE209EE3 = .ok (.bne 1 2 (-4)) ∧
    decodeWord 0x0020C463 = .ok (.blt 1 2 8) ∧
    decodeWord 0x0020D463 = .ok (.bge 1 2 8) ∧
    decodeWord 0x0020E463 = .ok (.bltu 1 2 8) ∧
    decodeWord 0x0020F463 = .ok (.bgeu 1 2 8) := by decide

theorem test_decode_loads_and_stores :
    decodeWord 0x00008183 = .ok (.lb 3 1 0) ∧
    decodeWord 0x00209183 = .ok (.lh 3 1 2) ∧
    decodeWord 0x0000A183 = .ok (.lw 3 1 0) ∧
    decodeWord 0x0050C183 = .ok (.lbu 3 1 5) ∧
    decodeWord 0x0020D183 = .ok (.lhu 3 1 2) ∧
    decodeWord 0x00208023 = .ok (.sb 1 2 0) ∧
    decodeWord 0x00209123 = .ok (.sh 1 2 2) ∧
    decodeWord 0xFE112E23 = .ok (.sw 2 1 (-4)) := by decide

theorem test_decode_multiply_and_divide :
    decodeWord 0x022081B3 = .ok (.mul 3 1 2) ∧
    decodeWord 0x022091B3 = .ok (.mulh 3 1 2) ∧
    decodeWord 0x0220A1B3 = .ok (.mulhsu 3 1 2) ∧
    decodeWord 0x0220B1B3 = .ok (.mulhu 3 1 2) ∧
    decodeWord 0x0220C1B3 = .ok (.div 3 1 2) ∧
    decodeWord 0x0220D1B3 = .ok (.divu 3 1 2) ∧
    decodeWord 0x0220E1B3 = .ok (.rem 3 1 2) ∧
    decodeWord 0x0220F1B3 = .ok (.remu 3 1 2) := by decide

theorem test_decode_atomics :
    decodeWord 0x1000A1AF = .ok (.lrW false false 3 1) ∧
    decodeWord 0x1820A22F = .ok (.scW false false 4 1 2) ∧
    decodeWord 0x0820A1AF = .ok (.amoswapW false false 3 1 2) ∧
    decodeWord 0x0020A1AF = .ok (.amoaddW false false 3 1 2) ∧
    decodeWord 0x2020A1AF = .ok (.amoxorW false false 3 1 2) ∧
    decodeWord 0x6020A1AF = .ok (.amoandW false false 3 1 2) ∧
    decodeWord 0x4020A1AF = .ok (.amoorW false false 3 1 2) ∧
    decodeWord 0x8020A1AF = .ok (.amominW false false 3 1 2) ∧
    decodeWord 0xA020A1AF = .ok (.amomaxW false false 3 1 2) ∧
    decodeWord 0xC020A1AF = .ok (.amominuW false false 3 1 2) ∧
    decodeWord 0xE020A1AF = .ok (.amomaxuW false false 3 1 2) := by decide

theorem test_decode_system :
    decodeWord 0x8330000F = .ok (.fence 8 3 3 0 0) ∧
    decodeWord 0x0FF1008F = .ok (.fence 0 15 15 2 1) ∧
    decodeWord 0x0000100F = .ok (.fenceI 0 0 0) ∧
    decodeWord 0x00000073 = .ok (.ecall) ∧
    decodeWord 0x00100073 = .ok (.ebreak) ∧
    decodeWord 0x30200073 = .ok (.mret) ∧
    decodeWord 0x10500073 = .ok (.wfi) ∧
    decodeWord 0x340091F3 = .ok (.csrrw 3 0x340 1) ∧
    decodeWord 0x34202373 = .ok (.csrrs 6 0x342 0) ∧
    decodeWord 0x3400B1F3 = .ok (.csrrc 3 0x340 1) ∧
    decodeWord 0x340FD1F3 = .ok (.csrrwi 3 0x340 31) ∧
    decodeWord 0x3407E1F3 = .ok (.csrrsi 3 0x340 15) ∧
    decodeWord 0x340871F3 = .ok (.csrrci 3 0x340 16) := by decide

theorem test_decode_refuses_by_name :
    decodeWord 0x00000000 = .error .notThirtyTwoBit ∧ decodeWord 0x00000007 = .error .unknownOpcode ∧
    decodeWord 0x1010A1AF = .error .unknownMinor ∧ decodeWord 0x0000200F = .error .unknownMinor ∧
    decodeWord 0x10508073 = .error .unknownMinor ∧ decodeWord 0x10200073 = .error .unknownMinor ∧
    decodeWord 0xFFFFFFFF = .error .unknownOpcode ∧ decode [0x73, 0, 0] = .error .truncated := by decide

theorem test_decodeTableWord :
    decodeTableWord 32 0x00100073 = some .ebreak ∧ decodeTableWord 16 0x00100073 = some .ecall := by decide

/-! ### One step an instruction, with results of the spec -/

theorem test_lui_keeps_low_bits_zero :
    (after (regs []) 0xFFFFF2B7).x 5 = 0xFFFFF000 := by decide

theorem test_auipc_wraps :
    (after { start with pc := 0x80000100 } 0xFFFFF297).x 5 = 0x7FFFF100 := by decide

theorem test_addi_wraps :
    (after (regs [(2, 0x7FFFFFFF)]) 0x00110093).x 1 = 0x80000000 := by decide

theorem test_slti_signed :
    (after (regs [(2, 0x80000000)]) 0xFFF12093).x 1 = 1 := by decide

theorem test_sltiu_immediate_is_extended :
    (after (regs [(2, 5)]) 0xFFF13093).x 1 = 1 := by decide

theorem test_xori :
    (after (regs [(2, 0x0F0F0F0F)]) 0xFFF14093).x 1 = 0xF0F0F0F0 := by decide

theorem test_ori :
    (after (regs [(2, 1)]) 0x80016093).x 1 = 0xFFFFF801 := by decide

theorem test_andi :
    (after (regs [(2, 0x12345678)]) 0xFF017093).x 1 = 0x12345670 := by decide

theorem test_slli :
    (after (regs [(2, 3)]) 0x01F11093).x 1 = 0x80000000 := by decide

theorem test_srli :
    (after (regs [(2, 0xF0000000)]) 0x00415093).x 1 = 0x0F000000 := by decide

theorem test_srai :
    (after (regs [(2, 0x80000000)]) 0x41F15093).x 1 = 0xFFFFFFFF := by decide

theorem test_add_wraps :
    (after (regs [(2, 0xFFFFFFFF), (3, 1), (1, 9)]) 0x003100B3).x 1 = 0 := by decide

theorem test_sub_order :
    (after (regs [(2, 0x80000000), (3, 1)]) 0x403100B3).x 1 = 0x7FFFFFFF := by decide

theorem test_sll_uses_five_bits :
    (after (regs [(2, 1), (3, 32)]) 0x003110B3).x 1 = 1 := by decide

theorem test_slt :
    (after (regs [(2, 0x80000000), (3, 0x7FFFFFFF)]) 0x003120B3).x 1 = 1 := by decide

theorem test_sltu :
    (after (regs [(2, 0x80000000), (3, 0x7FFFFFFF), (1, 9)]) 0x003130B3).x 1 = 0 := by decide

theorem test_xor :
    (after (regs [(2, 0xFF00FF00), (3, 0x0FF00FF0)]) 0x003140B3).x 1 = 0xF0F0F0F0 := by decide

theorem test_srl :
    (after (regs [(2, 0x80000000), (3, 0xFFFFFFFF)]) 0x003150B3).x 1 = 1 := by decide

theorem test_sra :
    (after (regs [(2, 0x80000000), (3, 0x3F)]) 0x403150B3).x 1 = 0xFFFFFFFF := by decide

theorem test_or :
    (after (regs [(2, 0xF0F00000), (3, 0x00000F0F)]) 0x003160B3).x 1 = 0xF0F00F0F := by decide

theorem test_and :
    (after (regs [(2, 0xFF00FF00), (3, 0x0FF00FF0)]) 0x003170B3).x 1 = 0x0F000F00 := by decide

theorem test_write_to_x0_is_discarded :
    (after (regs []) 0x00500013).x 0 = 0 := by decide

theorem test_jal_links :
    (after start 0x008000EF).x 1 = 0x80000004 ∧ (after start 0x008000EF).pc = 0x80000008 := by decide

theorem test_jalr_clears_bit_zero :
    (after (regs [(2, 0x80000040)]) 0x001100E7).pc = 0x80000040 := by decide

theorem test_jalr_reads_rs1_before_rd :
    (after (regs [(1, 0x80000040)]) 0x000080E7).pc = 0x80000040 := by decide

theorem test_beq_taken :
    (after (regs [(1, 5), (2, 5)]) 0x00208863).pc = 0x80000010 := by decide

theorem test_beq_falls_through :
    (after (regs [(1, 5), (2, 6)]) 0x00208863).pc = 0x80000004 := by decide

theorem test_bne_backward :
    (after (regs [(1, 5), (2, 6)]) 0xFE209EE3).pc = 0x7FFFFFFC := by decide

theorem test_blt_signed :
    (after (regs [(1, 0xFFFFFFFF), (2, 0)]) 0x0020C463).pc = 0x80000008 := by decide

theorem test_bge_equal :
    (after (regs [(1, 5), (2, 5)]) 0x0020D463).pc = 0x80000008 := by decide

theorem test_bltu_unsigned :
    (after (regs [(1, 0xFFFFFFFF), (2, 0)]) 0x0020E463).pc = 0x80000004 := by decide

theorem test_bgeu_unsigned :
    (after (regs [(1, 0xFFFFFFFF), (2, 0)]) 0x0020F463).pc = 0x80000008 := by decide

/-- The memory of the load examples of `43_load_store.md`: bytes `80 FF 34 12 78 56 00 80` at `0x80000100`. -/
def loadMemory : State :=
  withWord (withWord (regs [(2, 0x80000100)]) 0x80000100 0x1234FF80) 0x80000104 0x80005678

theorem test_lb_sign_extends :
    (after loadMemory 0x00010083).x 1 = 0xFFFFFF80 := by decide

theorem test_lh_odd_address :
    (after loadMemory 0x00311083).x 1 = 0x00007812 := by decide

theorem test_lw :
    (after loadMemory 0x00012083).x 1 = 0x1234FF80 := by decide

theorem test_lbu :
    (after loadMemory 0x00014083).x 1 = 0x00000080 := by decide

theorem test_lhu :
    (after loadMemory 0x00015083).x 1 = 0x0000FF80 := by decide

theorem test_lw_across_the_end_traps :
    (after (regs [(2, 0x8000FFFD)]) 0x00012083).mcause = 5 ∧
    (after (regs [(2, 0x8000FFFD)]) 0x00012083).mtval = 0x8000FFFD := by decide

theorem test_lbu_at_uart_takes_the_first_key :
    (after { regs [(2, 0x10000000)] with kbd := [0x41, 0x42] } 0x00014083).x 1 = 0x41 ∧
    (after { regs [(2, 0x10000000)] with kbd := [0x41, 0x42] } 0x00014083).kbd = [0x42] := by decide

theorem test_sb_at_uart_emits :
    (after (regs [(1, 0x10000000), (2, 0x41)]) 0x00208023).console = [.consoleChar 0x41] := by decide

theorem test_sb_to_syscon_is_truncated :
    (after (regs [(1, 0x11100000), (2, 0x5555)]) 0x00208023).result = .normal := by decide

theorem test_sh_odd_address :
    wordAt (after (withWord (regs [(1, 0x12345678), (2, 0x80000101)]) 0x80000100 0x12345680) 0x00111023) 0x80000100 =
      0x12567880 := by decide

theorem test_sh_reset_request :
    (after (regs [(1, 0x7777), (2, 0x11100000)]) 0x00111023).result = .resetRequest := by decide

theorem test_sw_negative_offset :
    wordAt (after (regs [(1, 0xAABBCCDD), (2, 0x80000108)]) 0xFE112E23) 0x80000104 = 0xAABBCCDD := by decide

theorem test_sw_power_off :
    (after (regs [(1, 0x5555), (2, 0x11100000)]) 0x00112023).result = .powerOff ∧
    (after (regs [(1, 0x5555), (2, 0x11100000)]) 0x00112023).halted = true ∧
    (after (regs [(1, 0x5555), (2, 0x11100000)]) 0x00112023).pc = 0x80000004 := by decide

theorem test_mul :
    (after (regs [(1, 0x12345678), (2, 0x9ABCDEF0)]) 0x022081B3).x 3 = 0x242D2080 := by decide

theorem test_mulh :
    (after (regs [(1, 0x12345678), (2, 0x9ABCDEF0)]) 0x022091B3).x 3 = 0xF8CC93D6 := by decide

theorem test_mulhsu :
    (after (regs [(1, 0xFFFFFFFF), (2, 0xFFFFFFFF)]) 0x0220A1B3).x 3 = 0xFFFFFFFF := by decide

theorem test_mulhu :
    (after (regs [(1, 0xFFFFFFFF), (2, 0xFFFFFFFF)]) 0x0220B1B3).x 3 = 0xFFFFFFFE := by decide

theorem test_div_overflow :
    (after (regs [(1, 0x80000000), (2, 0xFFFFFFFF)]) 0x0220C1B3).x 3 = 0x80000000 := by decide

theorem test_div_rounds_toward_zero :
    (after (regs [(1, 0xFFFFFFF9), (2, 2)]) 0x0220C1B3).x 3 = 0xFFFFFFFD := by decide

theorem test_divu_by_zero :
    (after (regs [(1, 7), (2, 0)]) 0x0220D1B3).x 3 = 0xFFFFFFFF := by decide

theorem test_rem_sign_of_dividend :
    (after (regs [(1, 0xFFFFFFF9), (2, 2)]) 0x0220E1B3).x 3 = 0xFFFFFFFF := by decide

theorem test_rem_by_zero :
    (after (regs [(1, 0x80000000), (2, 0)]) 0x0220E1B3).x 3 = 0x80000000 := by decide

theorem test_remu :
    (after (regs [(1, 0xFFFFFFF9), (2, 2)]) 0x0220F1B3).x 3 = 1 := by decide

/-- The word of the atomic examples at `0x80000100`, with x1 its address. -/
def atomicMemory (word x2 : Word) : State := withWord (regs [(1, 0x80000100), (2, x2)]) 0x80000100 word

theorem test_lr_reserves :
    (after (atomicMemory 0x11111111 0) 0x1000A1AF).x 3 = 0x11111111 ∧
    (after (atomicMemory 0x11111111 0) 0x1000A1AF).resvAddr = 0x80000100 := by decide

theorem test_sc_without_reservation_fails :
    (after (atomicMemory 0x11111111 0x22222222) 0x1820A22F).x 4 = 1 ∧
    wordAt (after (atomicMemory 0x11111111 0x22222222) 0x1820A22F) 0x80000100 = 0x11111111 := by decide

theorem test_sc_with_reservation_succeeds :
    (after ((atomicMemory 0x11111111 0x22222222).reserve 0x80000100) 0x1820A22F).x 4 = 0 ∧
    wordAt (after ((atomicMemory 0x11111111 0x22222222).reserve 0x80000100) 0x1820A22F) 0x80000100 = 0x22222222 := by decide

theorem test_amoswap :
    (after (atomicMemory 0xDEADBEEF 0x11111111) 0x0820A1AF).x 3 = 0xDEADBEEF ∧
    wordAt (after (atomicMemory 0xDEADBEEF 0x11111111) 0x0820A1AF) 0x80000100 = 0x11111111 := by decide

theorem test_amoadd_wraps :
    (after (atomicMemory 0xFFFFFFFF 2) 0x0020A1AF).x 3 = 0xFFFFFFFF ∧
    wordAt (after (atomicMemory 0xFFFFFFFF 2) 0x0020A1AF) 0x80000100 = 1 := by decide

theorem test_amoxor :
    (after (atomicMemory 0xFF00FF00 0x0FF00FF0) 0x2020A1AF).x 3 = 0xFF00FF00 ∧
    wordAt (after (atomicMemory 0xFF00FF00 0x0FF00FF0) 0x2020A1AF) 0x80000100 = 0xF0F0F0F0 := by decide

theorem test_amoand :
    (after (atomicMemory 0xFF00FF00 0x0FF00FF0) 0x6020A1AF).x 3 = 0xFF00FF00 ∧
    wordAt (after (atomicMemory 0xFF00FF00 0x0FF00FF0) 0x6020A1AF) 0x80000100 = 0x0F000F00 := by decide

theorem test_amoor :
    (after (atomicMemory 0xFF00FF00 0x0FF00FF0) 0x4020A1AF).x 3 = 0xFF00FF00 ∧
    wordAt (after (atomicMemory 0xFF00FF00 0x0FF00FF0) 0x4020A1AF) 0x80000100 = 0xFFF0FFF0 := by decide

theorem test_amomin_signed :
    (after (atomicMemory 0x80000000 1) 0x8020A1AF).x 3 = 0x80000000 ∧
    wordAt (after (atomicMemory 0x80000000 1) 0x8020A1AF) 0x80000100 = 0x80000000 := by decide

theorem test_amomax_signed :
    (after (atomicMemory 0x80000000 1) 0xA020A1AF).x 3 = 0x80000000 ∧
    wordAt (after (atomicMemory 0x80000000 1) 0xA020A1AF) 0x80000100 = 1 := by decide

theorem test_amominu_unsigned :
    (after (atomicMemory 0x80000000 1) 0xC020A1AF).x 3 = 0x80000000 ∧
    wordAt (after (atomicMemory 0x80000000 1) 0xC020A1AF) 0x80000100 = 1 := by decide

theorem test_amomaxu_unsigned :
    (after (atomicMemory 0x80000000 1) 0xE020A1AF).x 3 = 0x80000000 ∧
    wordAt (after (atomicMemory 0x80000000 1) 0xE020A1AF) 0x80000100 = 0x80000000 := by decide

theorem test_fence_changes_pc_and_cycle_only :
    after start 0x0FF0000F = { start.placeWord 0x0FF0000F with pc := 0x80000004, cycle := 1, stepTaken := true } := by decide

theorem test_fence_i_changes_pc_and_cycle_only :
    after start 0x0000100F = { start.placeWord 0x0000100F with pc := 0x80000004, cycle := 1, stepTaken := true } := by decide

theorem test_wfi_in_user_mode_changes_pc_and_cycle_only :
    after { start with priv := 0 } 0x10500073 =
      { ({ start with priv := 0 } : State).placeWord 0x10500073 with pc := 0x80000004, cycle := 1, stepTaken := true } := by decide

theorem test_ecall_from_machine_mode :
    (after { start with statusMIE := true, mtvec := 0x80000100 } 0x00000073).mcause = 11 ∧
    (after { start with statusMIE := true, mtvec := 0x80000100 } 0x00000073).pc = 0x80000100 ∧
    (after { start with statusMIE := true, mtvec := 0x80000100 } 0x00000073).statusMPP = 3 := by decide

theorem test_ecall_from_user_mode_saves_mode_zero :
    (after { start with priv := 0 } 0x00000073).mcause = 8 ∧ (after { start with priv := 0 } 0x00000073).statusMPP = 0 ∧
    (after { start with priv := 0 } 0x00000073).pc = 0x1000 := by decide

theorem test_ebreak_mtval_is_its_address :
    (after { start with pc := 0x80000004 } 0x00100073).mtval = 0x80000004 ∧
    (after { start with pc := 0x80000004 } 0x00100073).mcause = 3 := by decide

theorem test_mret :
    (after { start with mepc := 0x80000042, statusMPP := 3, statusMIE := true } 0x30200073).pc = 0x80000042 ∧
    (after { start with mepc := 0x80000042, statusMPP := 3, statusMIE := true } 0x30200073).statusMIE = false ∧
    (after { start with mepc := 0x80000042, statusMPP := 3, statusMIE := true } 0x30200073).statusMPP = 0 := by decide

theorem test_csrrw_swaps :
    (after { regs [(1, 0x12345678)] with mscratch := 0xF0F0F0F0 } 0x340091F3).x 3 = 0xF0F0F0F0 ∧
    (after { regs [(1, 0x12345678)] with mscratch := 0xF0F0F0F0 } 0x340091F3).mscratch = 0x12345678 := by decide

theorem test_csrrw_to_x0_takes_no_key :
    (after { regs [(1, 1)] with kbd := [0x41] } 0x14009073).kbd = [0x41] := by decide

theorem test_csrrs_reads_mcause :
    (after { start with mcause := 11 } 0x34202373).x 6 = 11 := by decide

theorem test_csrrc_clears :
    (after { regs [(1, 0xFF)] with mscratch := 0xF0F0F0F0 } 0x3400B1F3).mscratch = 0xF0F0F000 := by decide

theorem test_csrrwi :
    (after { start with mscratch := 7 } 0x340FD1F3).mscratch = 31 ∧ (after { start with mscratch := 7 } 0x340FD1F3).x 3 = 7 := by decide

theorem test_csrrsi :
    (after { start with mscratch := 0x100 } 0x3407E1F3).mscratch = 0x10F := by decide

theorem test_csrrci :
    (after { start with mscratch := 0xFF } 0x340871F3).mscratch = 0xEF := by decide

theorem test_illegal_word_traps :
    (after start 0x0000200F).mcause = 2 ∧ (after start 0x0000200F).mtval = 0x0000200F ∧ (after start 0x0000200F).mepc = 0x80000000 := by decide

theorem test_fence_text :
    Instr.toAsm 0 (.fence 0 15 15 0 0) = "fence iorw,iorw" ∧ Instr.toAsm 0 (.fence 8 3 3 0 0) = "fence.tso" ∧
    Instr.toAsm 0 (.fenceI 0 0 0) = "fence.i" := by decide

theorem test_render :
    renderDec 0xBEEF = [52, 56, 56, 55, 57] ∧ renderHex false 0xBEEF = [48, 48, 48, 48, 98, 101, 101, 102] := by decide

/-! ### Witnesses: a concrete state and operands that meet the hypotheses of each statement that has some, at the ends of their ranges -/

theorem witness_DecodeOfEncode :
    Instr.wellFormed (.jal 31 (-1048576)) = true ∧ Instr.wellFormed (.bgeu 31 0 4094) = true ∧
    Instr.wellFormed (.amomaxuW true true 31 31 31) = true ∧ Instr.wellFormed (.csrrci 31 0xFFF 31) = true := by decide

theorem witness_EncodeOfDecode :
    decodeWord 0xFFDFF0EF = .ok (.jal 1 (-4)) ∧ decodeWord 0xFFFFF0B7 = .ok (.lui 1 0xFFFFF) := by decide

theorem witness_DecodeIsTheOpcodeTable :
    (∃ r ∈ opcodeTable, r.matches 0x00000073 = true) ∧ (∀ r ∈ opcodeTable, r.matches 0x0000200F = false) := by decide

theorem witness_DecodeOfEncodedBytes : Instr.wellFormed (.jal 31 1048574) = true := by decide

/-- A branch in the last word of RAM. -/
def lastWord : State := ({ start with pc := 0x8000FFFC, stepTaken := true, hostInputs := [[.advanceTime 3, .keyTyped 7]] } : State).placeWord 0x00208863

theorem witness_StepRunsTheDecodedInstruction :
    lastWord.hostTurn.halted = false ∧ lastWord.hostTurn.timerInterruptReady = false ∧
    lastWord.hostTurn.offset lastWord.hostTurn.pc + 4 ≤ lastWord.hostTurn.cfg.dramSize ∧
    lastWord.hostTurn.pc.extractLsb' 0 2 = 0 ∧ lastWord.hostTurn.mem.read 0xFFFC = 0x63 ∧
    lastWord.hostTurn.mem.read 0xFFFD = 0x88 ∧ lastWord.hostTurn.mem.read 0xFFFE = 0x20 ∧
    lastWord.hostTurn.mem.read 0xFFFF = 0x00 ∧
    decodeWord ((0x00 : Byte) ++ (0x20 : Byte) ++ (0x88 : Byte) ++ (0x63 : Byte)) = .ok (.beq 1 2 16) := by decide

theorem witness_StepIsTotalUntilTheRunEnds :
    start.halted = false ∧ ({ start with halted := true } : State).halted = true := by decide

/-- The interrupt becomes ready in the host's turn, with `timermatch` just reached. -/
def timerDue (priv : BitVec 2) (mie : Bool) : State :=
  { start with timermatch := 5, mie := 0x80, priv := priv, statusMIE := mie, stepTaken := true, hostInputs := [[.advanceTime 5]] }

theorem witness_TimerInterruptIsTakenBeforeTheFetch :
    (timerDue 3 true).hostTurn.halted = false ∧ (timerDue 3 true).hostTurn.timermatch.toNat ≠ 0 ∧
    (timerDue 3 true).hostTurn.timermatch.toNat ≤ (timerDue 3 true).hostTurn.cycle.toNat ∧
    (timerDue 3 true).hostTurn.mie.getLsbD 7 = true ∧ (timerDue 3 true).hostTurn.statusMIE = true ∧
    (timerDue 0 false).hostTurn.timerInterruptReady = true ∧ (timerDue 3 false).hostTurn.timerInterruptReady = false := by decide

theorem witness_BadFetchTraps :
    (let u := ({ start with pc := 0x80010000 } : State).hostTurn;
      u.halted = false ∧ u.timerInterruptReady = false ∧ u.offset u.pc ≥ u.cfg.dramSize) ∧
    (let u := ({ start with pc := 0x7FFFFFFF } : State).hostTurn;
      u.halted = false ∧ u.timerInterruptReady = false ∧ u.offset u.pc ≥ u.cfg.dramSize) ∧
    (let u := ({ start with pc := 0x8000FFFF } : State).hostTurn;
      u.halted = false ∧ u.timerInterruptReady = false ∧ u.offset u.pc < u.cfg.dramSize ∧ u.pc.extractLsb' 0 2 ≠ 0) := by
  decide

theorem witness_IllegalWordTraps :
    (start.placeWord 0x0000200F).hostTurn.halted = false ∧
    (start.placeWord 0x0000200F).hostTurn.timerInterruptReady = false ∧
    (start.placeWord 0x0000200F).hostTurn.fetchWord 0x80000000 = .ok 0x0000200F ∧
    (∀ r ∈ opcodeTable, (0x0000200F : Word) &&& r.mask ≠ r.pattern) := by decide

theorem witness_CycleCountsSteps :
    (∃ t, step (timerDue 3 true) = .next t ∧ t.cycle = 5) ∧ (∃ t, step (timerDue 3 false) = .next t ∧ t.cycle = 6) :=
  ⟨⟨_, rfl, by decide⟩, ⟨_, rfl, by decide⟩⟩

/-- A store over the next instruction, in the last word of RAM. -/
def storesAhead : State := { regs [(1, 0x80010000), (2, 0x00000073)] with pc := 0x8000FFF8 }

theorem witness_FetchSeesTheStoreBeforeIt :
    storesAhead.mem.wf = true ∧ storePort storesAhead.cfg.toParams (storesAhead.storeAddr 1 (-4)) = none ∧
    storesAhead.storeAddr 1 (-4) = storesAhead.pc + 4 ∧ (storesAhead.pc + 4).extractLsb' 0 2 = 0 ∧
    storesAhead.offset (storesAhead.pc + 4) + 4 ≤ storesAhead.cfg.dramSize := by decide

theorem witness_FetchStaysInsideTheImage :
    start.cfg.ramBase.toNat % 4 = 0 ∧ lastWord.fetchWord 0x8000FFFC = .ok 0x00208863 := by decide

theorem witness_ImmediateShifts :
    (0b1111111 : BitVec 7) ≠ 0b0000000 ∧ (0b1111111 : BitVec 7) ≠ 0b0100000 ∧ (0b0100000 : BitVec 7) ≠ 0b0000000 := by decide

theorem witness_DivisionIdentity :
    (3 : Reg) ≠ 0 ∧ (regs [(1, 0x80000000), (2, 0xFFFFFFFF)]).x 2 ≠ 0 := by decide

theorem witness_Jumps :
    (-1048576 : BitVec 21).getLsbD 0 = false ∧ (1048574 : BitVec 21).getLsbD 0 = false ∧ (7 : BitVec 3) ≠ 0 := by decide

theorem witness_Branches :
    (-4096 : BitVec 13).getLsbD 0 = false ∧ (4094 : BitVec 13).getLsbD 0 = false := by decide

theorem witness_BusAbsorbsOutOfRange :
    ∀ n ∈ [Width.byte, .half, .word], 0x10000 - n.bytes + n.bytes ≤ start.cfg.dramSize ∧
      0x10000 - n.bytes + 1 + n.bytes > start.cfg.dramSize ∧ start.mem.wf = true ∧ n.bytes - 1 < n.bytes := by decide

theorem witness_LoadAfterStore : start.mem.wf = true ∧ 0xFFFC + 4 ≤ start.cfg.dramSize := by decide

theorem witness_ImageStaysCanonical :
    Memory.wf [(0, 1), (0xFFFF, 2)] = true ∧ Memory.below 0x10000 [(0, 1), (0xFFFF, 2)] = true ∧
    Memory.wf (Memory.write (Memory.write [] 0xFFFF 2) 0 1) = true ∧
    Memory.write (Memory.write [] 0xFFFF 2) 0 1 = [(0, 1), (0xFFFF, 2)] := by decide

theorem witness_ControlAddressesAreExact :
    (0x10000001 : Word) ∉ [0x10000000, 0x10000005, 0x60000000, cfg.timerLAddr, cfg.timerHAddr, cfg.matchLAddr, cfg.matchHAddr] ∧
    (0x11100001 : Word) ∉ [0x10000000, cfg.sysconAddr, cfg.matchLAddr, cfg.matchHAddr] := by decide

theorem witness_LoadsFromRam :
    loadPort cfg.toParams ((regs [(2, 0x8000FFFF)]).x 2 + BitVec.ofInt 32 (0 : BitVec 12).toInt) = none ∧
    loadPort cfg.toParams ((regs [(2, 0x8000FFFF)]).x 2 + BitVec.ofInt 32 (-1 : BitVec 12).toInt) = none ∧
    loadPort cfg.toParams ((regs [(2, 0x8000FFFF)]).x 2 + BitVec.ofInt 32 (-3 : BitVec 12).toInt) = none ∧
    start.offset 0x8000FFFF + 1 ≤ cfg.dramSize ∧ start.offset 0x8000FFFE + 2 ≤ cfg.dramSize ∧
    start.offset 0x8000FFFC + 4 ≤ cfg.dramSize := by decide

theorem witness_LoadsFromControlAddresses :
    ([0x10000000, 0x10000005, 0x60000000, 0x1100BFF8, 0x1100BFFC, 0x11004000, 0x11004004] : List Word).all
      (fun a => (regs [(2, a + 1)]).x 2 + BitVec.ofInt 32 (-1 : BitVec 12).toInt ∈
        [0x10000000, 0x10000005, 0x60000000, cfg.timerLAddr, cfg.timerHAddr, cfg.matchLAddr, cfg.matchHAddr]) = true := by
  decide

theorem witness_StoresToRam :
    (regs [(2, 0x8000FFFF)]).mem.wf = true ∧
    storePort cfg.toParams ((regs [(2, 0x8000FFFF)]).storeAddr 2 0) = none ∧
    start.offset ((regs [(2, 0x8000FFFF)]).storeAddr 2 0) + 1 ≤ cfg.dramSize ∧
    start.offset ((regs [(2, 0x8000FFFF)]).storeAddr 2 (-1)) + 2 ≤ cfg.dramSize ∧
    start.offset ((regs [(2, 0x8000FFFF)]).storeAddr 2 (-3)) + 4 ≤ cfg.dramSize := by decide

theorem witness_StoresToControlAddresses :
    ([0x10000000, 0x11100000, 0x11004000, 0x11004004] : List Word).all
      (fun a => (regs [(2, a + 1)]).x 2 + BitVec.ofInt 32 (-1 : BitVec 12).toInt ∈
        [0x10000000, cfg.sysconAddr, cfg.matchLAddr, cfg.matchHAddr]) = true := by decide

theorem witness_LoadInstructions :
    start.memRead 0x8000FFFC .word = .ok (0, start) ∧ start.memRead 0x60000000 .byte = .ok (67, start) ∧
    loadPort cfg.toParams 0x8000FFFD = none ∧ start.offset 0x8000FFFD + Width.word.bytes > cfg.dramSize ∧
    start.offset 0x8000FFFF + Width.half.bytes > cfg.dramSize ∧ start.offset 0x80010000 + Width.byte.bytes > cfg.dramSize := by
  decide

theorem witness_StoreInstructions :
    start.memWrite 0x8000FFFF .byte 0x100 = .ok (start, .normal) ∧
    start.memWrite 0x11100000 .word 0x5555 = .ok (start, .powerOff) ∧
    storePort cfg.toParams 0x8000FFFD = none ∧ start.offset 0x8000FFFD + Width.word.bytes > cfg.dramSize ∧
    start.offset 0x8000FFFF + Width.half.bytes > cfg.dramSize ∧ start.offset 0x80010000 + Width.byte.bytes > cfg.dramSize ∧
    (0b010 : BitVec 3) < 0b011 := by decide

theorem witness_LoadReserved :
    start.offset ((regs [(1, 0x8000FFFC)]).x 1) + 4 ≤ cfg.dramSize ∧
    start.offset ((regs [(1, 0x8000FFFD)]).x 1) + 4 > cfg.dramSize ∧ (31 : Reg) ≠ 0 := by decide

/-- x1 holds an address; the reservation is held at the last word of RAM. -/
def reserved (addr : Word) : State := { regs [(1, addr), (2, 9)] with resvValid := true, resvAddr := 0x8000FFFC }

theorem witness_StoreConditional :
    (reserved 0x8000FFFC).mem.wf = true ∧
    ((reserved 0x8000FFFC).offset ((reserved 0x8000FFFC).x 1) + 4 ≤ cfg.dramSize ∧ (reserved 0x8000FFFC).resvValid = true ∧
      (reserved 0x8000FFFC).resvAddr = (reserved 0x8000FFFC).x 1) ∧
    ((reserved 0x8000FFFB).offset ((reserved 0x8000FFFB).x 1) + 4 ≤ cfg.dramSize ∧
      ¬ ((reserved 0x8000FFFB).resvValid = true ∧ (reserved 0x8000FFFB).resvAddr = (reserved 0x8000FFFB).x 1)) ∧
    (reserved 0x8000FFFD).offset ((reserved 0x8000FFFD).x 1) + 4 > cfg.dramSize := by decide

theorem witness_AtomicMemoryOperations :
    (reserved 0x8000FFFC).mem.wf = true ∧ (reserved 0x8000FFFC).offset ((reserved 0x8000FFFC).x 1) + 4 ≤ cfg.dramSize ∧
    (reserved 0x8000FFFD).offset ((reserved 0x8000FFFD).x 1) + 4 > cfg.dramSize := by decide

theorem witness_StoreConditionalSucceedsAfterLoadReserved :
    (atomicMemory 7 8).mem.wf = true ∧
    (∀ i ∈ [Instr.addi 5 0 1, .sw 1 5 0, .ecall], i.mnemonic ≠ "SC.W" ∧ i.mnemonic ≠ "LR.W") ∧
    ∃ t u, exec (.lrW true false 3 1) (atomicMemory 7 8) = .next t ∧ t.result = .normal ∧
      execAll [.addi 5 0 1, .sw 1 5 0, .ecall] t = .next u ∧ u.x 1 = (atomicMemory 7 8).x 1 :=
  ⟨by decide, by decide, _, _, rfl, by decide, rfl, by decide⟩

theorem witness_FencesAndWfiAreNoOps : (0b001 : BitVec 3) < 0b010 ∧ (0b001 : BitVec 3) < 0b111 := by decide

theorem witness_CsrInstructions :
    ((1 : Reg) ≠ 0 ∧ ¬ ((0 : Reg) ≠ 0)) ∧ ((31 : BitVec 5) ≠ 0 ∧ ¬ ((0 : BitVec 5) ≠ 0)) := by decide

theorem witness_CsrReadValues :
    (0x000 : CsrNum) ∉ [0x300, 0x304, 0x305, 0x340, 0x341, 0x342, 0x343, 0x344, 0xC00, 0xC01, 0xC80, 0xC81, 0x140, 0x141] ∧
    (0xF14 : CsrNum) ∉ [0x300, 0x304, 0x305, 0x340, 0x341, 0x342, 0x343, 0x344, 0xC00, 0xC01, 0xC80, 0xC81, 0x140, 0x141] := by
  decide

theorem witness_CsrWriteEffects :
    (0x344 : CsrNum) ∉ [0x300, 0x304, 0x305, 0x340, 0x341, 0x342, 0x343, 0x402, 0x139, 0x136, 0x137] ∧
    (renderDec 0xFFFFFFFF).length = 10 ∧ renderDec 0 = [48] := by decide

theorem witness_TrapsArePrecise :
    (∃ t, exec .ecall start = .next t ∧ t.result = .trapped (.envCall 3)) ∧
    (∃ t, exec .ebreak start = .next t ∧ t.result = .trapped .breakpoint) ∧
    (∃ t, exec (.lb 1 0 0) start = .next t ∧ t.result = .trapped .loadAccessFault) ∧
    (∃ t, exec (.lrW false false 1 0) start = .next t ∧ t.result = .trapped .loadAccessFault) ∧
    (∃ t, exec (.sw 0 0 0) start = .next t ∧ t.result = .trapped .storeAccessFault) ∧
    (∃ t, exec (.amoaddW false false 1 0 0) start = .next t ∧ t.result = .trapped .storeAccessFault) :=
  ⟨⟨_, rfl, by decide⟩, ⟨_, rfl, by decide⟩, ⟨_, rfl, by decide⟩, ⟨_, rfl, by decide⟩, ⟨_, rfl, by decide⟩,
    ⟨_, rfl, by decide⟩⟩

theorem witness_OnlyStoresChangeMemory :
    (∃ t, exec .ecall start = .next t) ∧ Instr.ecall.mnemonic ∉ storeMnemonics ++ amoMnemonics ++ ["SC.W"] ∧
    (∃ t, exec (.sw 2 1 (-4)) (regs [(1, 5), (2, 0x80010000)]) = .next t) :=
  ⟨⟨_, rfl⟩, by decide, ⟨_, rfl⟩⟩

theorem witness_OnlyLrAndScChangeTheReservation :
    (∃ t, exec .mret (reserved 0) = .next t) ∧ Instr.mret.mnemonic ≠ "LR.W" ∧ Instr.mret.mnemonic ≠ "SC.W" ∧
    (∃ t, exec (.scW false false 3 1 2) (reserved 0) = .next t ∧ t.result = .trapped .storeAccessFault) ∧
    (∃ t, step (timerDue 0 false) = .next t) ∧ (timerDue 0 false).hostTurn.timerInterruptReady = true :=
  ⟨⟨_, rfl⟩, by decide, by decide, ⟨_, rfl, by decide⟩, ⟨_, rfl⟩, by decide⟩

theorem witness_ModeChangesOnlyByTrapAndReturn :
    (∃ t, exec .mret start = .next t) ∧ (∃ t, exec .ecall start = .next t) ∧ (∃ t, exec .wfi start = .next t) :=
  ⟨⟨_, rfl⟩, ⟨_, rfl⟩, ⟨_, rfl⟩⟩

theorem witness_PrivilegeForbidsNothing : Instr.mret ≠ .ecall ∧ Instr.csrrw 1 0x300 2 ≠ .ecall := by decide

theorem witness_RunEndsOnlyByRequest :
    (regs [(1, 0x7777), (2, 0x11100000)]).halted = false ∧
    ∃ t, exec (.sh 2 1 0) (regs [(1, 0x7777), (2, 0x11100000)]) = .next t ∧ t.halted = true :=
  ⟨by decide, _, rfl, by decide⟩

/-- The host types a key and closes its stream when the end of input is latched already. -/
def latched : State := { start with eofLatch := true, inputClosed := true, hostInputs := [[.keyTyped 1, .closeInput]] }

theorem witness_EndOfInputIsLatched : latched.eofLatch = true ∧ ∃ t, step latched = .next t := ⟨by decide, _, rfl⟩

/-- The pc stands at the fallback handler, outside RAM. -/
def badHandler : State := { start with pc := 0x1000 }

theorem witness_BadHandlerTrapsForEver :
    badHandler.halted = false ∧ badHandler.hostInputs = [] ∧ badHandler.offset badHandler.trapTarget ≥ badHandler.cfg.dramSize ∧
    badHandler.pc = badHandler.trapTarget ∧ badHandler.priv = 3 ∧ badHandler.statusMIE = false ∧
    ∃ t, step badHandler = .next t :=
  ⟨by decide, by decide, by decide, by decide, by decide, by decide, _, rfl⟩

theorem witness_StepKeepsTheInvariant :
    start.Inv ∧ (∃ t, step start = .next t) ∧ ∃ t, start.restart [1, 0, 2] = .next t :=
  ⟨⟨by decide, by decide, by decide, by decide⟩, ⟨_, rfl⟩, ⟨_, rfl⟩⟩

/-- The smallest memory a configuration can have. -/
def smallest : State := { start with cfg := { cfg.toParams with dramSize := 8, valid := by decide } }

theorem witness_RestartGivesTheResetState :
    (List.replicate 9 (1 : Byte)).length > smallest.cfg.dramSize ∧ (List.replicate 8 (1 : Byte)).length ≤ smallest.cfg.dramSize ∧
    (∃ t, smallest.restart (List.replicate 8 1) = .next t) ∧ smallest.restart (List.replicate 9 1) = .refused .imageTooLong :=
  ⟨by decide, by decide, ⟨_, rfl⟩, rfl⟩

/-- The host would add time before and after the first step of a run. -/
def scheduled : State := { start with hostInputs := [[.advanceTime 9, .keyTyped 65], [.advanceTime 9]] }

theorem witness_NothingTouchesTheBlockBeforeTheFirstStep :
    cfg.ramBase.toNat % 4 = 0 ∧
    ∃ t, scheduled.restart [0x13, 0, 0, 0] = .next t ∧ ∃ v, step t = .next v ∧ v.cycle = 1 ∧ v.kbd = [65] ∧
      v.hostTurn.cycle = 10 :=
  ⟨by decide, _, rfl, _, rfl, by decide, by decide, by decide⟩

theorem witness_LoadImmediateExpansionLoads : (31 : Reg) ≠ 0 := by decide

end Sys2Proof.Tests
end

section
/-! SUPPORT. Proofs of the memory family (`20_memory.md`): the bus primitives, and the loads and stores of the control addresses. -/

namespace Sys2Proof.Machine

/-! ### The bytes of a loaded value (R41, R43) -/

/-- Byte `k` of a word put together from four bytes. -/
theorem extractLsb'_bytes (b : Nat → Byte) (k : Nat) (hk : k < 4) :
    (b 3 ++ b 2 ++ b 1 ++ b 0).extractLsb' (8 * k) 8 = b k := by
  obtain rfl | rfl | rfl | rfl : k = 0 ∨ k = 1 ∨ k = 2 ∨ k = 3 := by omega
  · exact extract_last _ _
  · exact (extract_skip _ _ 0 8).trans (extract_last _ _)
  · exact (extract_skip _ _ 8 8).trans ((extract_skip _ _ 0 8).trans (extract_last _ _))
  · exact (extract_skip _ _ 16 8).trans ((extract_skip _ _ 8 8).trans ((extract_skip _ _ 0 8).trans (extract_all _)))

/-- Byte `k` of a load, or zero beyond its width. -/
def Memory.byteOfLoad (m : Memory) (off : Nat) (n : Width) (k : Nat) : Byte :=
  if k < n.bytes then m.read (off + k) else 0

/-- A load is the word of its four bytes, those beyond the width zero. -/
theorem Memory.load_eq_bytes (m : Memory) (off : Nat) (n : Width) :
    m.load off n = m.byteOfLoad off n 3 ++ m.byteOfLoad off n 2 ++ m.byteOfLoad off n 1 ++ m.byteOfLoad off n 0 := by
  cases n
  case byte => simp [Memory.load, BitVec.setWidth_eq_append, Memory.byteOfLoad, Width.bytes]
  case half =>
    have h : m.load off .half = 0#16 ++ (m.read (off + 1) ++ m.read off) := BitVec.setWidth_eq_append (by decide)
    have h' : 0#16 ++ (m.read (off + 1) ++ m.read off) = 0#16 ++ m.read (off + 1) ++ m.read off :=
      (BitVec.cast_eq rfl _).symm.trans BitVec.append_assoc.symm
    simpa [Memory.byteOfLoad, Width.bytes, h] using h'
  case word => rfl

theorem Memory.extractLsb'_load (m : Memory) (off : Nat) (n : Width) (k : Nat) (hk : k < 4) :
    (m.load off n).extractLsb' (8 * k) 8 = m.byteOfLoad off n k := by
  rw [Memory.load_eq_bytes]
  exact extractLsb'_bytes (m.byteOfLoad off n) k hk

/-- Settles O26: out of range by the range check, in range by the bytes of `Memory.load` and the read-after-write laws. -/
theorem busAbsorbsOutOfRange : Obligations.BusAbsorbsOutOfRange := by
  intro s off n v
  constructor
  · intro h
    exact ⟨State.busLoad_outOfRange s off n h, State.busStore_outOfRange s off n v h⟩
  · intro h
    refine ⟨fun k hk => ?_, fun hw k hk => State.busStore_read_same s off n v k hw h hk, State.busStore_read_other s off n v, rfl⟩
    rw [State.busLoad_inRange s off n h]
    exact Memory.extractLsb'_load s.mem off n k hk

/-! ### The value of a narrow access (R40, R46) -/

theorem Width.truncate_byte_eq (v : Word) : Width.byte.truncate v = BitVec.ofNat 32 (v.toNat % 2 ^ 8) :=
  BitVec.eq_of_toNat_eq (by simp [Width.truncate])

theorem Width.truncate_half_eq (v : Word) : Width.half.truncate v = BitVec.ofNat 32 (v.toNat % 2 ^ 16) :=
  BitVec.eq_of_toNat_eq (by simp [Width.truncate])

theorem extractLsb'_truncate_byte (v : Word) : (Width.byte.truncate v).extractLsb' 0 8 = v.extractLsb' 0 8 :=
  (BitVec.extractLsb'_setWidth_of_le (by decide)).trans (extract_all _)

theorem extractLsb'_truncate_half (v : Word) : (Width.half.truncate v).extractLsb' 0 16 = v.extractLsb' 0 16 :=
  (BitVec.extractLsb'_setWidth_of_le (by decide)).trans (extract_all _)

theorem Width.truncate_truncate (n : Width) (v : Word) : n.truncate (n.truncate v) = n.truncate v := by
  cases n
  · exact congrArg (BitVec.setWidth 32) (extractLsb'_truncate_byte v)
  · exact congrArg (BitVec.setWidth 32) (extractLsb'_truncate_half v)
  · rfl

/-- R161, R162: sign extension reads the low bits only, so the arbiter's truncation before it changes nothing. -/
theorem signExtendLoaded_byte_truncate (v : Word) :
    signExtendLoaded .byte (Width.byte.truncate v) = BitVec.ofInt 32 (v.extractLsb' 0 8).toInt :=
  congrArg (BitVec.signExtend 32) (extractLsb'_truncate_byte v)

theorem signExtendLoaded_half_truncate (v : Word) :
    signExtendLoaded .half (Width.half.truncate v) = BitVec.ofInt 32 (v.extractLsb' 0 16).toInt :=
  congrArg (BitVec.signExtend 32) (extractLsb'_truncate_half v)

theorem State.loadAddr_eq (s : State) (rs1 : Reg) (imm : BitVec 12) :
    s.loadAddr rs1 imm = s.x rs1 + BitVec.ofInt 32 imm.toInt := by
  rw [State.loadAddr, immI_eq]

theorem State.storeAddr_eq (s : State) (rs1 : Reg) (imm : BitVec 12) :
    s.storeAddr rs1 imm = s.x rs1 + BitVec.ofInt 32 imm.toInt := by
  rw [State.storeAddr, immS_eq]

/-! ### Loads from a control address -/

/-- R53: a key is pending when the input has not ended and there is one. -/
theorem State.keyPending_eq (s : State) :
    s.keyPending = (!(s.eofLatch || s.inputClosed) && decide (s.kbd ≠ [])) := by
  unfold State.keyPending
  cases s.eofLatch <;> cases s.inputClosed <;> cases s.kbd <;> rfl

/-- R51: the value and the state after a key read, each with its own case distinction. -/
theorem State.readKey_eq (s : State) (none : Word) :
    s.readKey none =
      (if s.keyPending then BitVec.ofNat 32 (s.kbd.headD 0).toNat else none,
        { s with eofLatch := s.eofLatch || s.inputClosed, kbd := if s.keyPending then s.kbd.tail else s.kbd }) := by
  unfold State.readKey
  cases s.keyPending
  · rfl
  · simp only [if_true, BitVec.ofNat_toNat]
    rfl

/-- A load that starts at a control address gets the word of the device, truncated to the width, and completes (R45). -/
theorem State.loadTo_port (s : State) (rd : Reg) (addr : Word) (n : Width) (f : Word → Word) (q : LoadPort)
    (h : loadPort s.cfg.toParams addr = some q) :
    s.loadTo rd addr n f = (s.devLoad q).2.writeback rd (f (n.truncate (s.devLoad q).1)) := by
  simp only [State.loadTo, State.memRead_port s addr n q h]

/-- What a completed load does: one register, and of the system only what its read changed. -/
theorem ReadFrom.writeback_spec {s u : State} (h : ReadFrom s u) (rd : Reg) (v : Word) :
    (u.writeback rd v).x rd = (if rd = 0 then 0 else v) ∧ (∀ r, r ≠ rd → (u.writeback rd v).x r = s.x r) ∧
      Retired (s.pc + 4) s (u.writeback rd v) ∧ SameMemory s (u.writeback rd v) ∧ SameSystem u (u.writeback rd v) := by
  obtain ⟨hx, hr, hret, hmem, hsys⟩ := State.writeback_spec u rd v
  have hu := h.frame
  generalize u.eofLatch = e, u.kbd = k at hu
  subst hu
  exact ⟨hx, hr, ⟨hret.pc, hret.cycle, hret.result, hret.halted⟩, hmem, hsys⟩

/-- `loadPort` at a control load address, its chain pushed through a function of the port (R49). -/
theorem map_loadPort {α : Type} (p : Params) (a : Word) (f : LoadPort → α)
    (h : a ∈ [0x10000000, 0x10000005, 0x60000000, p.timerLAddr, p.timerHAddr, p.matchLAddr, p.matchHAddr]) :
    (loadPort p a).map f = some
      (if a = 0x10000000 then f .uart
      else if a = 0x10000005 then f .uartStatus
      else if a = 0x60000000 then f .id
      else if a = p.timerLAddr then f .timerL
      else if a = p.timerHAddr then f .timerH
      else if a = p.matchLAddr then f .matchL
      else f .matchH) := by
  simp only [List.mem_cons, List.not_mem_nil, or_false] at h
  unfold loadPort uartAddr uartStatusAddr idAddr
  repeat' split
  any_goals rfl
  -- What is left is an address that is none of the seven, against `h`.
  simp_all

/-- Settles O31: the device word of the statement is `devLoad` of the port at the address. -/
theorem loadsFromControlAddresses : Obligations.LoadsFromControlAddresses := by
  intro s rd rs1 imm p ea closed pending polled word w after hmem
  obtain ⟨q, hq, hword⟩ : ∃ q, loadPort p ea = some q ∧ s.devLoad q = word := by
    have hmap : (loadPort p ea).map s.devLoad = some word := by
      rw [map_loadPort p ea s.devLoad hmem]
      simp only [State.devLoad, State.readKey_eq, State.readKeyStatus, State.keyPending_eq]
      rfl
    exact Option.map_eq_some_iff.mp hmap
  have completes (n : Width) (f : Word → Word) : after (f (n.truncate w)) (s.loadTo rd (s.loadAddr rs1 imm) n f) := by
    rw [State.loadAddr_eq, State.loadTo_port s rd _ n f q hq, hword]
    exact ReadFrom.writeback_spec (hword ▸ State.devLoad_frame s q) rd _
  refine ⟨⟨_, rfl, completes .word id⟩, ⟨_, rfl, ?_⟩, ⟨_, rfl, ?_⟩, ⟨_, rfl, ?_⟩, ⟨_, rfl, ?_⟩⟩
  · rw [← signExtendLoaded_half_truncate]
    exact completes _ _
  · rw [← Width.truncate_half_eq, ← Width.truncate_truncate]
    exact completes _ _
  · rw [← signExtendLoaded_byte_truncate]
    exact completes _ _
  · rw [← Width.truncate_byte_eq, ← Width.truncate_truncate]
    exact completes _ _

/-! ### Stores to a control address -/

/-- The control store address of a port (R49). -/
def StorePort.addr (p : Params) : StorePort → Word
  | .uart => uartAddr
  | .syscon => p.sysconAddr
  | .matchL => p.matchLAddr
  | .matchH => p.matchHAddr

theorem StorePort.exists_of_mem {p : Params} {a : Word} (h : a ∈ [0x10000000, p.sysconAddr, p.matchLAddr, p.matchHAddr]) :
    ∃ q : StorePort, a = q.addr p := by
  simp only [List.mem_cons, List.not_mem_nil, or_false] at h
  rcases h with h | h | h | h
  · exact ⟨.uart, h⟩
  · exact ⟨.syscon, h⟩
  · exact ⟨.matchL, h⟩
  · exact ⟨.matchH, h⟩

/-- The control store addresses of a configuration are distinct (R6), so each selects its own port. -/
theorem storePort_addr (c : Config) (q : StorePort) : storePort c.toParams (q.addr c.toParams) = some q := by
  obtain ⟨-, -, -, -, hctl, -⟩ := c.valid
  have h : [uartAddr, c.sysconAddr, c.matchLAddr, c.matchHAddr].Nodup :=
    hctl.sublist (.cons_cons _ (.cons _ (.cons _ (.cons_cons _ (.cons _ (.cons _ (.refl _)))))))
  simp only [List.nodup_cons, List.mem_cons, List.not_mem_nil, or_false, not_or] at h
  obtain ⟨⟨hus, hul, huh⟩, ⟨hsl, hsh⟩, hlh, -⟩ := h
  cases q
  case uart => exact if_pos rfl
  case syscon => simp [storePort, StorePort.addr, Ne.symm hus]
  case matchL => simp [storePort, StorePort.addr, Ne.symm hul, Ne.symm hsl]
  case matchH => simp [storePort, StorePort.addr, Ne.symm huh, Ne.symm hsh, Ne.symm hlh]

/-- So a port is known by its address. -/
theorem StorePort.addr_inj (c : Config) (q q' : StorePort) : q.addr c.toParams = q'.addr c.toParams ↔ q = q' := by
  constructor
  · intro h
    have h' := storePort_addr c q
    rw [h, storePort_addr] at h'
    exact (Option.some.inj h').symm
  · exact congrArg (StorePort.addr c.toParams)

/-- What a control store leaves: the console longer by one character, or a half of `timermatch` replaced; nothing else. -/
theorem State.devStore_state (s : State) (q : StorePort) (w : Word) :
    (s.devStore q w).1 =
      { s with
        console := if q = .uart then s.console ++ [.consoleChar (w.extractLsb' 0 8)] else s.console
        timermatch :=
          (if q = .matchH then w else highHalf s.timermatch) ++ (if q = .matchL then w else lowHalf s.timermatch) } := by
  have hglue : highHalf s.timermatch ++ lowHalf s.timermatch = s.timermatch :=
    (extract_glue s.timermatch 0 32 32).trans (extract_all _)
  cases q
  case uart => simp [State.devStore, State.emit, hglue]
  case syscon => simp [State.devStore, hglue]
  case matchL => rfl
  case matchH => rfl

theorem State.devStore_result (s : State) (q : StorePort) (w : Word) :
    (s.devStore q w).2 = if q = .syscon then requestOf s.cfg.toParams w else .normal := by
  cases q <;> rfl

/-- A device requests the end of the run or nothing (R56, R98). -/
theorem State.devStore_endsRun (s : State) (q : StorePort) (w : Word) :
    (s.devStore q w).2.endsRun = decide ((s.devStore q w).2 ≠ .normal) := by
  cases q
  case syscon =>
    simp only [State.devStore, requestOf]
    split_ifs <;> rfl
  all_goals rfl

/-- A store that starts at a control address hands the device the truncated value and completes with its result (R46). -/
theorem State.storeFrom_port (s : State) (addr : Word) (n : Width) (v : Word) (q : StorePort)
    (h : storePort s.cfg.toParams addr = some q) :
    s.storeFrom addr n v =
      (s.devStore q (n.truncate v)).1.commit (s.devStore q (n.truncate v)).2 (s.pc + 4) := by
  simp only [State.storeFrom, State.memWrite_port s addr n v q h]

/-- Settles O33: the conditions on the address in the statement are those on the port in `devStore`. -/
theorem storesToControlAddresses : Obligations.StoresToControlAddresses := by
  intro s rs1 rs2 imm p ea after hmem
  obtain ⟨q, hq⟩ := StorePort.exists_of_mem hmem
  have completes (n : Width) (v : Word) : after (n.truncate v) (s.storeFrom (s.storeAddr rs1 imm) n v) := by
    have hport : storePort p (s.storeAddr rs1 imm) = some q := by
      rw [State.storeAddr_eq, show s.x rs1 + BitVec.ofInt 32 imm.toInt = q.addr p from hq]
      exact storePort_addr s.cfg q
    have at_port (q' : StorePort) : ea = q'.addr p ↔ q = q' := by
      rw [hq]
      exact StorePort.addr_inj s.cfg q q'
    have hu : ea = 0x10000000 ↔ q = .uart := at_port .uart
    have hs : ea = p.sysconAddr ↔ q = .syscon := at_port .syscon
    have hl : ea = p.matchLAddr ↔ q = .matchL := at_port .matchL
    have hh : ea = p.matchHAddr ↔ q = .matchH := at_port .matchH
    rw [State.storeFrom_port s _ n v q hport]
    generalize n.truncate v = w
    have hresult := State.devStore_result s q w
    rw [requestOf, ← ite_not] at hresult
    simp only [after, ne_eq, hu, hs, hl, hh]
    rw [← hresult, ← State.devStore_endsRun, State.devStore_state]
    exact ⟨rfl, rfl, rfl, rfl, fun _ => rfl, fun _ => rfl, ⟨rfl, rfl, rfl, rfl⟩, ⟨rfl, rfl, rfl⟩, ⟨rfl, rfl, rfl⟩, ⟨rfl, rfl⟩,
      ⟨rfl, rfl, rfl⟩, ⟨rfl, rfl, rfl⟩, rfl, extract_last _ _, (extract_skip _ _ 0 32).trans (extract_all _)⟩
  refine ⟨⟨_, rfl, completes .word _⟩, ⟨_, rfl, ?_⟩, ⟨_, rfl, ?_⟩⟩
  · rw [← Width.truncate_half_eq]
    exact completes .half _
  · rw [← Width.truncate_byte_eq]
    exact completes .byte _

end Sys2Proof.Machine
end

section
/-! SUPPORT. Proofs of the encoding family (`30_encoding.md`): every word the decoder accepts is of a row of the opcode table, so a word
of no row raises `IllegalInstruction`. -/

namespace Sys2Proof

/-! ### The masks of the opcode table (R80)

A mask keeps the fixed fields of its format and clears the others. In each proof `change` writes the width as the sum of the fields'
widths, without which `BitVec.and_append` does not apply. -/

theorem and_regField_zero (x : BitVec 5) : x &&& regField 0 = regField 0 := BitVec.and_zero

theorem and_ofBool_false (x : BitVec 1) : x &&& BitVec.ofBool false = BitVec.ofBool false := BitVec.and_zero

theorem and_maskU (w : Word) : w &&& 0x0000007f = uType 0#20 0 (opcodeOf w) := by
  have hmask : (0x0000007f : Word) = uType 0#20 0 (.allOnes 7) := rfl
  conv_lhs => rw [hmask, ← uType_fields w]
  change (_ ++ _ : BitVec (20 + 5 + 7)) &&& (_ ++ _ : BitVec (20 + 5 + 7)) = _
  simp only [uType, BitVec.and_append, BitVec.and_allOnes, BitVec.and_zero, and_regField_zero]

theorem and_maskI (w : Word) : w &&& 0x0000707f = iType 0#12 0 (funct3Of w) 0 (opcodeOf w) := by
  have hmask : (0x0000707f : Word) = iType 0#12 0 (.allOnes 3) 0 (.allOnes 7) := rfl
  conv_lhs => rw [hmask, ← iType_fields w]
  change (_ ++ _ : BitVec (12 + 5 + 3 + 5 + 7)) &&& (_ ++ _ : BitVec (12 + 5 + 3 + 5 + 7)) = _
  simp only [iType, BitVec.and_append, BitVec.and_allOnes, BitVec.and_zero, and_regField_zero]

theorem and_maskR (w : Word) : w &&& 0xfe00707f = rType (funct7Of w) 0 0 (funct3Of w) 0 (opcodeOf w) := by
  have hmask : (0xfe00707f : Word) = rType (.allOnes 7) 0 0 (.allOnes 3) 0 (.allOnes 7) := rfl
  conv_lhs => rw [hmask, ← rType_fields w]
  change (_ ++ _ : BitVec (7 + 5 + 5 + 3 + 5 + 7)) &&& (_ ++ _ : BitVec (7 + 5 + 5 + 3 + 5 + 7)) = _
  simp only [rType, BitVec.and_append, BitVec.and_allOnes, and_regField_zero]

/-- The mask of an atomic instruction that keeps the bits `k` of rs2: all for LR.W, none for the others. -/
def atomicMask (k : BitVec 5) : Word :=
  BitVec.allOnes 5 ++ BitVec.ofBool false ++ BitVec.ofBool false ++ k ++ regField 0 ++ BitVec.allOnes 3 ++ regField 0 ++
    BitVec.allOnes 7

theorem and_atomicMask {w : Word} (ho : opcodeOf w = 0b0101111) (h3 : funct3Of w = 0b010) (k : BitVec 5) :
    w &&& atomicMask k = atomicType (funct5Of w) false false (regField (rs2Of w) &&& k).toFin 0 0 := by
  conv_lhs => rw [← atomicType_fields w h3 ho]
  change (_ ++ _ : BitVec (5 + 1 + 1 + 5 + 5 + 3 + 5 + 7)) &&& (_ ++ _ : BitVec (5 + 1 + 1 + 5 + 5 + 3 + 5 + 7)) = _
  simp only [atomicType, BitVec.and_append, BitVec.and_allOnes, and_regField_zero, and_ofBool_false, regField_toFin]

/-! ### Words of a row -/

/-- The word is of the row with that mnemonic. -/
def HasRow (w : Word) (m : String) : Prop := ∃ r ∈ opcodeTable, r.mnemonic = m ∧ w &&& r.mask = r.pattern

section
variable {w : Word} {m : String} {op f7 : BitVec 7} {f3 : BitVec 3} {f5 : BitVec 5}

theorem hasRow_uType (ho : opcodeOf w = op) (hr : ⟨m, 0x0000007f, uType 0#20 0 op⟩ ∈ opcodeTable) : HasRow w m :=
  ⟨_, hr, rfl, by rw [and_maskU, ho]⟩

theorem hasRow_iType (ho : opcodeOf w = op) (h3 : funct3Of w = f3) (hr : ⟨m, 0x0000707f, iType 0#12 0 f3 0 op⟩ ∈ opcodeTable) :
    HasRow w m :=
  ⟨_, hr, rfl, by rw [and_maskI, ho, h3]⟩

theorem hasRow_rType (ho : opcodeOf w = op) (h3 : funct3Of w = f3) (h7 : funct7Of w = f7)
    (hr : ⟨m, 0xfe00707f, rType f7 0 0 f3 0 op⟩ ∈ opcodeTable) : HasRow w m :=
  ⟨_, hr, rfl, by rw [and_maskR, ho, h3, h7]⟩

theorem hasRow_amo (ho : opcodeOf w = 0b0101111) (h3 : funct3Of w = 0b010) (h5 : funct5Of w = f5)
    (hr : ⟨m, atomicMask 0#5, atomicType f5 false false 0 0 0⟩ ∈ opcodeTable) : HasRow w m :=
  ⟨_, hr, rfl, by rw [and_atomicMask ho h3, h5, BitVec.and_zero]; rfl⟩

theorem hasRow_lrW (ho : opcodeOf w = 0b0101111) (h3 : funct3Of w = 0b010) (h5 : funct5Of w = 0b00010) (h2 : rs2Of w = 0) :
    HasRow w "LR.W" := by
  refine ⟨⟨_, atomicMask (.allOnes 5), atomicType 0b00010 false false 0 0 0⟩, by decide, rfl, ?_⟩
  rw [and_atomicMask ho h3, h5, h2, BitVec.and_allOnes, toFin_regField]

theorem hasRow_word (hr : ⟨m, 0xffffffff, w⟩ ∈ opcodeTable) : HasRow w m :=
  ⟨_, hr, rfl, BitVec.and_allOnes⟩

end

/-! ### The decoder stays inside the table (R80)

In each case of a minor code the equations of the case are those of the row. -/

section
variable {w : Word} {i : Instr}

theorem decodeLoad_hasRow (ho : opcodeOf w = 0b0000011) (h : decodeLoad w = .ok i) : HasRow w i.mnemonic := by
  unfold decodeLoad at h
  split at h <;> cases h <;> simp only [Instr.mnemonic]
  all_goals exact hasRow_iType ho ‹_› (by decide)

theorem decodeMiscMem_hasRow (ho : opcodeOf w = 0b0001111) (h : decodeMiscMem w = .ok i) : HasRow w i.mnemonic := by
  unfold decodeMiscMem at h
  split at h <;> cases h <;> simp only [Instr.mnemonic]
  all_goals exact hasRow_iType ho ‹_› (by decide)

theorem decodeOpImm_hasRow (ho : opcodeOf w = 0b0010011) (h : decodeOpImm w = .ok i) : HasRow w i.mnemonic := by
  unfold decodeOpImm at h
  split at h
  case h_7 h3 =>
    -- funct3 `001`
    split at h <;> cases h
    exact hasRow_rType (m := "SLLI") ho h3 ‹_› (by decide)
  case h_8 h3 =>
    -- funct3 `101`
    split at h <;> cases h <;> simp only [Instr.mnemonic]
    all_goals exact hasRow_rType ho h3 ‹_› (by decide)
  all_goals
    cases h
    simp only [Instr.mnemonic]
    exact hasRow_iType ho ‹_› (by decide)

theorem decodeStore_hasRow (ho : opcodeOf w = 0b0100011) (h : decodeStore w = .ok i) : HasRow w i.mnemonic := by
  unfold decodeStore at h
  split at h <;> cases h <;> simp only [Instr.mnemonic]
  all_goals exact hasRow_iType ho ‹_› (by decide)

theorem decodeAmo_hasRow (ho : opcodeOf w = 0b0101111) (h : decodeAmo w = .ok i) : HasRow w i.mnemonic := by
  unfold decodeAmo at h
  split at h
  case h_1 h3 =>
    split at h
    case h_1 h5 =>
      -- LR.W
      split at h <;> cases h
      exact hasRow_lrW ho h3 h5 ‹_›
    all_goals cases h
    all_goals simp only [Instr.mnemonic]
    all_goals exact hasRow_amo ho h3 ‹_› (by decide)
  case h_2 => cases h

theorem decodeOp_hasRow (ho : opcodeOf w = 0b0110011) (h : decodeOp w = .ok i) : HasRow w i.mnemonic := by
  unfold decodeOp at h
  split at h
  case h_4 => cases h
  all_goals
    split at h <;> cases h <;> simp only [Instr.mnemonic]
    all_goals exact hasRow_rType ho ‹_› ‹_› (by decide)

theorem decodeBranch_hasRow (ho : opcodeOf w = 0b1100011) (h : decodeBranch w = .ok i) : HasRow w i.mnemonic := by
  unfold decodeBranch at h
  split at h <;> cases h <;> simp only [Instr.mnemonic]
  all_goals exact hasRow_iType ho ‹_› (by decide)

theorem decodeJalr_hasRow (ho : opcodeOf w = 0b1100111) (h : decodeJalr w = .ok i) : HasRow w i.mnemonic := by
  unfold decodeJalr at h
  split at h <;> cases h
  exact hasRow_iType (m := "JALR") ho ‹_› (by decide)

theorem decodeSystem_hasRow (ho : opcodeOf w = 0b1110011) (h : decodeSystem w = .ok i) : HasRow w i.mnemonic := by
  unfold decodeSystem at h
  split at h
  case h_1 =>
    -- funct3 `000`: the whole word is compared
    split_ifs at h <;> cases h <;> subst w <;> simp only [Instr.mnemonic]
    all_goals exact hasRow_word (by decide)
  all_goals cases h
  all_goals simp only [Instr.mnemonic]
  all_goals exact hasRow_iType ho ‹_› (by decide)

/-- A word the decoder accepts is of the row of the instruction it is decoded to. -/
theorem decodeWord_hasRow (h : decodeWord w = .ok i) : HasRow w i.mnemonic := by
  unfold decodeWord at h
  split at h
  case isTrue => cases h
  case isFalse =>
    split at h
    case h_1 ho => exact decodeLoad_hasRow ho h
    case h_2 ho => exact decodeMiscMem_hasRow ho h
    case h_3 ho => exact decodeOpImm_hasRow ho h
    case h_4 ho => cases h; exact hasRow_uType (m := "AUIPC") ho (by decide)
    case h_5 ho => exact decodeStore_hasRow ho h
    case h_6 ho => exact decodeAmo_hasRow ho h
    case h_7 ho => exact decodeOp_hasRow ho h
    case h_8 ho => cases h; exact hasRow_uType (m := "LUI") ho (by decide)
    case h_9 ho => exact decodeBranch_hasRow ho h
    case h_10 ho => exact decodeJalr_hasRow ho h
    case h_11 ho => cases h; exact hasRow_uType (m := "JAL") ho (by decide)
    case h_12 ho => exact decodeSystem_hasRow ho h
    case h_13 => cases h

/-- R81: a word of no row of the table is none the decoder accepts. -/
theorem decodeWord_error_of_noRow (h : ∀ r ∈ opcodeTable, w &&& r.mask ≠ r.pattern) : ∃ e, decodeWord w = .error e := by
  cases hd : decodeWord w with
  | error e => exact ⟨e, rfl⟩
  | ok i =>
    obtain ⟨r, hr, -, hw⟩ := decodeWord_hasRow hd
    exact absurd hw (h r hr)

end

end Sys2Proof

namespace Sys2Proof.Machine

/-! ### A step whose fetch raises an exception (R90, R93) -/

theorem State.fetchInstr_illegal {s : State} {w : Word} {e : DecodeError} (hw : s.fetchWord s.pc = .ok w)
    (he : decodeWord w = .error e) : s.fetchInstr = .error ⟨.illegalInstruction, w⟩ := by
  simp only [State.fetchInstr, hw, he]

theorem hartStep_fetch_error {s : State} {r : Raised} (hrun : s.halted = false) (hint : s.timerInterruptReady = false)
    (hf : s.fetchInstr = .error r) : hartStep s = .next (s.raise r) := by
  simp [hartStep, hrun, hint, hf]

/-- Settles O10: a word of no row is refused by the decoder, so the fetch raises `IllegalInstruction` with it. -/
theorem illegalWordTraps : Obligations.IllegalWordTraps := by
  intro s w u hrun hint hw hno
  obtain ⟨e, he⟩ := decodeWord_error_of_noRow hno
  exact ⟨_, hartStep_fetch_error hrun hint (State.fetchInstr_illegal hw he), State.raise_spec u .illegalInstruction w, rfl⟩

end Sys2Proof.Machine
end

section
/-! SUPPORT. Proofs of the step loop family (`40_step_loop.md`): the timer interrupt before the fetch, and a fetch at a bad pc. -/

namespace Sys2Proof.Machine

/-! ### The timer interrupt (R91, R265, R266) -/

/-- R265 over natural numbers. -/
theorem State.mtip_iff (s : State) : s.mtip = true ↔ s.timermatch.toNat ≠ 0 ∧ s.timermatch.toNat ≤ s.cycle.toNat := by
  rw [State.mtip, Bool.and_eq_true, decide_eq_true_iff, decide_eq_true_iff, BitVec.le_def, Ne, BitVec.toNat_eq]
  rfl

/-- R266: pending, enabled in `mie`, and not masked by machine mode with MIE clear. -/
theorem State.timerInterruptReady_iff (s : State) :
    s.timerInterruptReady = true ↔ s.mtip = true ∧ s.mie.getLsbD 7 = true ∧ (s.priv ≠ 3 ∨ s.statusMIE = true) := by
  simp only [State.timerInterruptReady, Bool.and_eq_true, Bool.or_eq_true, decide_eq_true_iff, and_assoc]

theorem hartStep_timerInterrupt {s : State} (hrun : s.halted = false) (hint : s.timerInterruptReady = true) :
    hartStep s = .next s.takeTimerInterrupt := by
  simp [hartStep, hrun, hint]

/-- Settles O8: readiness is R265 and R266 together, and a ready interrupt is tested before the fetch. -/
theorem timerInterruptIsTakenBeforeTheFetch : Obligations.TimerInterruptIsTakenBeforeTheFetch := by
  intro s u ready
  have hready : ready ↔ u.timerInterruptReady = true := by
    rw [State.timerInterruptReady_iff, State.mtip_iff, and_assoc]
  refine ⟨hready, fun hrun h => ?_⟩
  exact ⟨_, hartStep_timerInterrupt hrun (hready.mp h), u.takeTimerInterrupt_spec, rfl, rfl⟩

/-! ### A fetch at a bad pc (R44, R92) -/

theorem State.fetchWord_accessFault {s : State} {addr : Word} (hout : s.offset addr ≥ s.cfg.dramSize) :
    s.fetchWord addr = .error ⟨.instrAccessFault, addr⟩ := if_pos hout

theorem State.fetchWord_misaligned {s : State} {addr : Word} (hin : s.offset addr < s.cfg.dramSize)
    (hmis : addr.extractLsb' 0 2 ≠ 0) : s.fetchWord addr = .error ⟨.instrAddrMisaligned, addr⟩ :=
  (if_neg (Nat.not_le.mpr hin)).trans (if_pos hmis)

theorem State.fetchInstr_fetchWord_error {s : State} {r : Raised} (hw : s.fetchWord s.pc = .error r) :
    s.fetchInstr = .error r := by
  simp only [State.fetchInstr, hw]

/-- Settles O9: outside RAM the range check raises its fault first, inside RAM the alignment check does. -/
theorem badFetchTraps : Obligations.BadFetchTraps := by
  intro s u hrun hint
  have raises {e : Exception} (hw : u.fetchWord u.pc = .error ⟨e, u.pc⟩) :
      ∃ t, step s = .next t ∧ RaisedException e u.pc u t :=
    ⟨_, hartStep_fetch_error hrun hint (State.fetchInstr_fetchWord_error hw), u.raise_spec e u.pc⟩
  constructor
  · intro hout
    exact raises (State.fetchWord_accessFault hout)
  · intro hin hmis
    exact raises (State.fetchWord_misaligned hin hmis)

end Sys2Proof.Machine
end

section
/-! SUPPORT. Proofs of the integer computation family (`41_integer_alu.md`): the words of LUI, AUIPC, OP-IMM and OP, and what each
instruction writes as arithmetic. -/

namespace Sys2Proof

/-! ### The major opcodes of the integer instructions (R79) -/

section
variable {w : Word}

theorem decodeWord_lui (h : opcodeOf w = 0b0110111) : decodeWord w = .ok (.lui (rdOf w) (immUOf w)) := by
  simp [decodeWord, low_two_of_opcode h rfl, h]

theorem decodeWord_auipc (h : opcodeOf w = 0b0010111) : decodeWord w = .ok (.auipc (rdOf w) (immUOf w)) := by
  simp [decodeWord, low_two_of_opcode h rfl, h]

theorem decodeWord_opImm (h : opcodeOf w = 0b0010011) : decodeWord w = decodeOpImm w := by
  simp [decodeWord, low_two_of_opcode h rfl, h]

theorem decodeWord_op (h : opcodeOf w = 0b0110011) : decodeWord w = decodeOp w := by
  simp [decodeWord, low_two_of_opcode h rfl, h]

/-! ### The illegal shift words of OP-IMM (R80, R109 to R111) -/

theorem decodeOpImm_shiftLeft_illegal (h3 : funct3Of w = 0b001) (h7 : funct7Of w ≠ 0b0000000) :
    decodeOpImm w = .error .unknownMinor := by
  simp only [decodeOpImm, h3, BitVec.ofNat_eq_ofNat]
  split
  case h_1 h => exact absurd h h7
  case h_2 => rfl

theorem decodeOpImm_shiftRight_illegal (h3 : funct3Of w = 0b101) (hl : funct7Of w ≠ 0b0000000) (ha : funct7Of w ≠ 0b0100000) :
    decodeOpImm w = .error .unknownMinor := by
  simp only [decodeOpImm, h3, BitVec.ofNat_eq_ofNat]
  split
  case h_1 h => exact absurd h hl
  case h_2 h => exact absurd h ha
  case h_3 => rfl

end

end Sys2Proof

namespace Sys2Proof.Machine

/-! ### An instruction whose one effect is a register write (R100) -/

/-- The word decodes to the instruction, which writes back `v'`; the statement calls that value `v`. -/
theorem WordMeans.of_writeback {w : Word} {i : Instr} {s : State} {rd : Reg} {v v' : Word} (hd : decodeWord w = .ok i)
    (he : exec i s = .next (s.writeback rd v')) (hv : v' = v) : WordMeans w i s (WritesOneRegister rd v (s.pc + 4) s) :=
  ⟨hd, _, he, hv ▸ s.writeback_spec rd v'⟩

/-! ### Sums, differences and comparisons as arithmetic (R7) -/

theorem add_immI_eq (a : Word) (imm : BitVec 12) : a + immI imm = BitVec.ofInt 32 (a.toInt + imm.toInt) := by
  rw [immI_eq, BitVec.ofInt_add, BitVec.ofInt_toInt]

theorem sub_eq_ofInt (a b : Word) : a - b = BitVec.ofInt 32 (a.toInt - b.toInt) :=
  BitVec.eq_of_toInt_eq (by rw [BitVec.toInt_sub, BitVec.toInt_ofInt])

theorem boolWord_ltSigned (a b : Word) : boolWord (ltSigned a b) = if a.toInt < b.toInt then 1 else 0 := by
  simp only [boolWord, ltSigned, decide_eq_true_iff]

theorem boolWord_ltUnsigned (a b : Word) : boolWord (ltUnsigned a b) = if a.toNat < b.toNat then 1 else 0 := by
  simp only [boolWord, ltUnsigned, decide_eq_true_iff]

/-! ### The obligations

In each the instruction's arm of `exec` is a write-back by `rfl`, and a law says what the value written is as arithmetic; the words are
left for the end, where their opcode and minor codes select the arm of the decoder. -/

/-- Settles O16: the immediate with twelve zero bits below it is 4096 times itself. -/
theorem upperImmediates : Obligations.UpperImmediates := by
  intro s rd imm
  refine ⟨.of_writeback ?lui rfl (immU_eq imm), .of_writeback ?auipc rfl (by rw [immU_eq])⟩
  case lui => simp [decodeWord_lui]
  case auipc => simp [decodeWord_auipc]

/-- Settles O17: sign extension keeps the value of the immediate. -/
theorem registerImmediateInstructions : Obligations.RegisterImmediateInstructions := by
  intro s rd rs1 imm a k
  have hk : immI imm = k := immI_eq imm
  have slti : boolWord (ltSigned a (immI imm)) = if a.toInt < imm.toInt then 1 else 0 := by
    rw [boolWord_ltSigned, immI_toInt]
  have sltiu : boolWord (ltUnsigned a (immI imm)) = if a.toNat < k.toNat then 1 else 0 := by
    rw [boolWord_ltUnsigned, hk]
  refine ⟨.of_writeback ?_ rfl (add_immI_eq a imm), .of_writeback ?_ rfl slti, .of_writeback ?_ rfl sltiu,
    .of_writeback ?_ rfl (congrArg (a ^^^ ·) hk), .of_writeback ?_ rfl (congrArg (a ||| ·) hk),
    .of_writeback ?_ rfl (congrArg (a &&& ·) hk)⟩
  all_goals simp [decodeWord_opImm, decodeOpImm]

/-- Settles O18: a shift is a product or a floor quotient by a power of two; under the two shift minor codes no other funct7 is legal. -/
theorem immediateShifts : Obligations.ImmediateShifts := by
  refine ⟨fun s rd rs1 shamt => ?_, fun funct7 shamt rd rs1 => ⟨fun h7 => ?_, fun hl ha => ?_⟩⟩
  · refine ⟨.of_writeback ?_ rfl (shiftLeft_eq_mul _ _), .of_writeback ?_ rfl (ushiftRight_eq_div _ _),
      .of_writeback ?_ rfl (sshiftRight_eq_div _ _)⟩
    all_goals simp [decodeWord_opImm, decodeOpImm]
  · rw [decodeWord_opImm (opcodeOf_shiftType ..)]
    exact decodeOpImm_shiftLeft_illegal (funct3Of_shiftType ..) (by rwa [funct7Of_shiftType])
  · rw [decodeWord_opImm (opcodeOf_shiftType ..)]
    exact decodeOpImm_shiftRight_illegal (funct3Of_shiftType ..) (by rwa [funct7Of_shiftType]) (by rwa [funct7Of_shiftType])

/-- Settles O19: sum and difference wrap modulo 2^32, whichever way the operands are read. -/
theorem registerRegisterInstructions : Obligations.RegisterRegisterInstructions := by
  intro s rd rs1 rs2 a b
  refine ⟨.of_writeback ?_ rfl (BitVec.add_def a b), .of_writeback ?_ rfl (sub_eq_ofInt a b),
    .of_writeback ?_ rfl (boolWord_ltSigned a b), .of_writeback ?_ rfl (boolWord_ltUnsigned a b), .of_writeback ?_ rfl rfl,
    .of_writeback ?_ rfl rfl, .of_writeback ?_ rfl rfl⟩
  all_goals simp [decodeWord_op, decodeOp]

/-- Settles O20: the low five bits of `x[rs2]` are its value modulo 32, and a shift is a product or a floor quotient by a power of two. -/
theorem registerShifts : Obligations.RegisterShifts := by
  intro s rd rs1 rs2 a n
  have hn : shiftAmount (s.x rs2) = n := shiftAmount_eq (s.x rs2)
  refine ⟨.of_writeback ?_ rfl (hn ▸ shiftLeft_eq_mul a _), .of_writeback ?_ rfl (hn ▸ ushiftRight_eq_div a _),
    .of_writeback ?_ rfl (hn ▸ sshiftRight_eq_div a _)⟩
  all_goals simp [decodeWord_op, decodeOp]

end Sys2Proof.Machine
end

section
/-! SUPPORT. Proofs of the control transfer family (`42_control_transfer.md`): the words of JAL, JALR and BRANCH, the jump targets and the
branch conditions as arithmetic. -/

namespace Sys2Proof

/-! ### The major opcodes of the control transfers (R79) -/

section
variable {w : Word}

theorem decodeWord_jal (h : opcodeOf w = 0b1101111) : decodeWord w = .ok (.jal (rdOf w) (immJOf w)) := by
  simp [decodeWord, low_two_of_opcode h rfl, h]

theorem decodeWord_jalr (h : opcodeOf w = 0b1100111) : decodeWord w = decodeJalr w := by
  simp [decodeWord, low_two_of_opcode h rfl, h]

theorem decodeWord_branch (h : opcodeOf w = 0b1100011) : decodeWord w = decodeBranch w := by
  simp [decodeWord, low_two_of_opcode h rfl, h]

/-- R80: JALR has one minor code. -/
theorem decodeJalr_illegal (h3 : funct3Of w ≠ 0b000) : decodeJalr w = .error .unknownMinor := by
  unfold decodeJalr
  split
  case h_1 h => exact absurd h h3
  case h_2 => rfl

end

end Sys2Proof

namespace Sys2Proof.Machine

/-! ### An instruction that jumps or branches (R140) -/

section
variable {w : Word} {i : Instr} {s : State}

/-- The word decodes to the instruction, which links and goes to `target'`; the statement calls that address `target`. -/
theorem WordMeans.of_jump {rd : Reg} {target target' : Word} (hd : decodeWord w = .ok i)
    (he : exec i s = .next (s.jump rd target')) (ht : target' = target) :
    WordMeans w i s (WritesOneRegister rd (s.pc + 4) target s) :=
  ⟨hd, _, he, ht ▸ s.jump_spec rd target'⟩

/-- The word decodes to the instruction, which branches on `cond`; the statement calls that condition `P`. -/
theorem WordMeans.of_branch {cond : Bool} {imm : BitVec 13} {P : Prop} [Decidable P] (hd : decodeWord w = .ok i)
    (he : exec i s = .next (s.branch cond imm)) (hc : cond = true ↔ P) :
    WordMeans w i s (OnlyRetires (if P then s.pc + BitVec.ofInt 32 imm.toInt else s.pc + 4) s) := by
  have h := s.branch_spec cond imm
  simp only [hc, immB_eq] at h
  exact ⟨hd, _, he, h⟩

end

/-! ### The target of JALR (R142) -/

/-- Clearing bit 0 rounds down to an even address: it shifts the bit out and a zero in. -/
theorem clear_bit_zero_eq (a : Word) : a &&& 0xFFFFFFFE = BitVec.ofNat 32 (a.toNat / 2 * 2) := by
  have hshift : a >>> 1 <<< 1 = a &&& (0xFFFFFFFE : Word) := BitVec.shiftLeft_ushiftRight
  rw [← hshift, shiftLeft_eq_mul, BitVec.toNat_ushiftRight, Nat.shiftRight_eq_div_pow, Nat.pow_one]

theorem State.jalrTarget_eq (s : State) (rs1 : Reg) (imm : BitVec 12) :
    s.jalrTarget rs1 imm = BitVec.ofNat 32 ((s.x rs1 + BitVec.ofInt 32 imm.toInt).toNat / 2 * 2) := by
  rw [State.jalrTarget, clear_bit_zero_eq, immI_eq]

/-! ### The branch conditions (R7) -/

theorem ltSigned_iff (a b : Word) : ltSigned a b = true ↔ a.toInt < b.toInt := decide_eq_true_iff

theorem not_ltSigned_iff (a b : Word) : (!ltSigned a b) = true ↔ a.toInt ≥ b.toInt := by
  rw [Bool.not_eq_true', ← Bool.not_eq_true, ltSigned_iff, not_lt]

theorem ltUnsigned_iff (a b : Word) : ltUnsigned a b = true ↔ a.toNat < b.toNat := decide_eq_true_iff

theorem not_ltUnsigned_iff (a b : Word) : (!ltUnsigned a b) = true ↔ a.toNat ≥ b.toNat := by
  rw [Bool.not_eq_true', ← Bool.not_eq_true, ltUnsigned_iff, not_lt]

/-! ### The obligations -/

/-- Settles O24: JAL adds its sign-extended offset, JALR masks bit 0 of its sum; a JALR word of another minor code is refused. -/
theorem jumps : Obligations.Jumps := by
  refine ⟨fun s rd imm heven => .of_jump ?jal rfl (by rw [immJ_eq]), fun s rd rs1 imm => .of_jump ?jalr rfl (s.jalrTarget_eq rs1 imm),
    fun rd rs1 imm funct3 h3 => ?illegal⟩
  case jal => simp [decodeWord_jal, immJOf_jType imm rd _ heven]
  case jalr => simp [decodeWord_jalr, decodeJalr]
  case illegal =>
    rw [decodeWord_jalr (opcodeOf_iType ..)]
    exact decodeJalr_illegal (by rwa [funct3Of_iType])

/-- Settles O25: each condition the model tests is the comparison of the statement; an even offset comes back whole from its word. -/
theorem branches : Obligations.Branches := by
  intro s rs1 rs2 imm heven a b target
  have beq : decide (a = b) = true ↔ a.toNat = b.toNat := decide_eq_true_iff.trans BitVec.toNat_eq
  have bne : decide (a ≠ b) = true ↔ a.toNat ≠ b.toNat := decide_eq_true_iff.trans BitVec.toNat_eq.not
  refine ⟨.of_branch ?_ rfl beq, .of_branch ?_ rfl bne, .of_branch ?_ rfl (ltSigned_iff a b),
    .of_branch ?_ rfl (not_ltSigned_iff a b), .of_branch ?_ rfl (ltUnsigned_iff a b), .of_branch ?_ rfl (not_ltUnsigned_iff a b)⟩
  all_goals simp [decodeWord_branch, decodeBranch, immBOf_bType imm _ _ _ _ heven]

end Sys2Proof.Machine
end

section
/-! SUPPORT. Proofs of the load and store family (`43_load_store.md`): the words of LOAD and STORE, and what a load or store does with
each answer of the memory-bus arbiter. -/

namespace Sys2Proof

/-! ### The major opcodes of the loads and stores (R79) -/

section
variable {w : Word}

theorem decodeWord_load (h : opcodeOf w = 0b0000011) : decodeWord w = decodeLoad w := by
  simp [decodeWord, low_two_of_opcode h rfl, h]

theorem decodeWord_store (h : opcodeOf w = 0b0100011) : decodeWord w = decodeStore w := by
  simp [decodeWord, low_two_of_opcode h rfl, h]

/-! ### The illegal minor codes of LOAD and STORE (R80) -/

theorem decodeLoad_illegal (h3 : funct3Of w ∈ [0b011#3, 0b110#3, 0b111#3]) : decodeLoad w = .error .unknownMinor := by
  simp only [List.mem_cons, List.not_mem_nil, or_false] at h3
  rcases h3 with h | h | h
  all_goals simp [decodeLoad, h]

theorem decodeStore_illegal (h3 : 0b010 < funct3Of w) : decodeStore w = .error .unknownMinor := by
  unfold decodeStore
  split
  case h_4 => rfl
  -- The three minor codes of a store are not above `010`.
  all_goals
    rename_i h
    rw [h] at h3
    exact absurd h3 (by decide)

end

end Sys2Proof

namespace Sys2Proof.Machine

section
variable {s u : State} {addr : Word} {n : Width}

/-! ### A load, by the answer of the arbiter (R45, R160) -/

/-- A read the arbiter answers changes nothing but the keyboard. -/
theorem State.readFrom_of_memRead {v : Word} (h : s.memRead addr n = .ok (v, u)) : ReadFrom s u := by
  rcases s.memRead_cases addr n with ⟨v', u', h', hu⟩ | h'
  · rw [h] at h'
    cases h'
    exact hu
  · rw [h] at h'
    cases h'

theorem State.loadTo_of_memRead (rd : Reg) {v : Word} (f : Word → Word) (h : s.memRead addr n = .ok (v, u)) :
    s.loadTo rd addr n f = u.writeback rd (f v) := by
  simp only [State.loadTo, h]

theorem State.loadTo_fault (rd : Reg) (f : Word → Word) (hp : loadPort s.cfg.toParams addr = none)
    (h : s.offset addr + n.bytes > s.cfg.dramSize) : s.loadTo rd addr n f = s.raise ⟨.loadAccessFault, addr⟩ := by
  simp only [State.loadTo, s.memRead_fault addr n hp h]

/-! ### A store, by the answer of the arbiter (R46, R160) -/

variable {v : Word} {result : StepResult}

/-- A write the arbiter answers changes nothing but the image, the console and `timermatch`. -/
theorem State.memWrite_frame (h : s.memWrite addr n v = .ok (u, result)) :
    u = { s with mem := u.mem, console := u.console, timermatch := u.timermatch } := by
  rcases s.memWrite_cases addr n v with ⟨_, h'⟩ | ⟨_, h'⟩ | ⟨_, h'⟩ | h' | h'
  all_goals
    rw [h] at h'
    cases h'
  all_goals rfl

theorem State.storeFrom_of_memWrite (h : s.memWrite addr n v = .ok (u, result)) :
    s.storeFrom addr n v = u.commit result (s.pc + 4) := by
  simp only [State.storeFrom, h]

theorem State.storeFrom_fault (hp : storePort s.cfg.toParams addr = none) (h : s.offset addr + n.bytes > s.cfg.dramSize) :
    s.storeFrom addr n v = s.raise ⟨.storeAccessFault, addr⟩ := by
  simp only [State.storeFrom, s.memWrite_fault addr n v hp h]

end

/-- Ending an instruction touches pc, cycle, the result and `halted`, none of them part of the system. -/
theorem State.commit_sameSystem (s : State) (result : StepResult) (next : Word) : SameSystem s (s.commit result next) :=
  ⟨⟨rfl, rfl, rfl, rfl⟩, ⟨rfl, rfl, rfl⟩, ⟨rfl, rfl, rfl⟩, rfl, ⟨rfl, rfl⟩, ⟨rfl, rfl, rfl⟩, rfl, ⟨rfl, rfl, rfl⟩⟩

/-! ### The obligations -/

/-- Settles O34: the five arms of `exec` are `loadTo` with a width and an extension; what the arbiter answers decides how it ends. -/
theorem loadInstructions : Obligations.LoadInstructions := by
  intro s rd rs1 imm ea loads
  have load {funct3 : BitVec 3} {i : Instr} {n : Width} {f extend : Word → Word}
      (hd : decodeWord (iType imm rs1 funct3 rd 0b0000011) = .ok i)
      (he : exec i s = .next (s.loadTo rd (s.loadAddr rs1 imm) n f)) (hf : ∀ v, f v = extend v) : loads funct3 i n extend := by
    rw [s.loadAddr_eq rs1 imm] at he
    refine ⟨hd, fun v u hread => ⟨_, he, ?completes⟩, fun hp hout => ⟨_, he, ?faults⟩⟩
    case completes =>
      rw [State.loadTo_of_memRead rd f hread, hf]
      exact (State.readFrom_of_memRead hread).writeback_spec rd _
    case faults =>
      rw [State.loadTo_fault rd f hp hout]
      exact s.raise_spec _ _
  refine ⟨load ?_ rfl fun _ => rfl, load ?_ rfl fun _ => rfl, load ?_ rfl fun _ => rfl, load ?_ rfl Width.truncate_byte_eq,
    load ?_ rfl Width.truncate_half_eq, fun funct3 h3 => ?illegal⟩
  case illegal =>
    rw [decodeWord_load (opcodeOf_iType ..)]
    exact decodeLoad_illegal (by rwa [funct3Of_iType])
  all_goals simp [decodeWord_load, decodeLoad]

/-- Settles O35: the three arms of `exec` are `storeFrom` with a width; what the arbiter answers decides how it ends. -/
theorem storeInstructions : Obligations.StoreInstructions := by
  intro s rs1 rs2 imm ea stores
  have store {funct3 : BitVec 3} {i : Instr} {n : Width} (hd : decodeWord (sType imm rs2 rs1 funct3 0b0100011) = .ok i)
      (he : exec i s = .next (s.storeFrom (s.storeAddr rs1 imm) n (s.x rs2))) : stores funct3 i n := by
    rw [s.storeAddr_eq rs1 imm] at he
    refine ⟨hd, fun u result hwrite => ⟨_, he, ?completes⟩, fun hp hout => ⟨_, he, ?faults⟩⟩
    case completes =>
      rw [State.storeFrom_of_memWrite hwrite]
      have hu := State.memWrite_frame hwrite
      generalize u.mem = m, u.console = c, u.timermatch = k at hu
      subst hu
      exact ⟨rfl, rfl, rfl, rfl, fun _ => rfl, fun _ => rfl, State.commit_sameSystem _ result _⟩
    case faults =>
      rw [State.storeFrom_fault hp hout]
      exact s.raise_spec _ _
  refine ⟨store ?_ rfl, store ?_ rfl, store ?_ rfl, fun funct3 h3 => ?illegal⟩
  case illegal =>
    rw [decodeWord_store (opcodeOf_sType ..)]
    exact decodeStore_illegal (by rwa [funct3Of_sType])
  all_goals simp [decodeWord_store, decodeStore]

end Sys2Proof.Machine
end

section
/-! SUPPORT. Proofs of the multiply and divide family (`44_muldiv.md`): the products, quotients and remainders as arithmetic. -/

namespace Sys2Proof.Machine

/-! ### Products (R180 to R184) -/

theorem mulLow_eq (a b : Word) : mulLow a b = BitVec.ofNat 32 (a.toNat * b.toNat) := BitVec.mul_def

theorem highWord_mul_toNat (a b : Word) :
    highWord (a.toNat * b.toNat) = (BitVec.ofNat 64 (a.toNat * b.toNat)).extractLsb' 32 32 := by
  rw [highWord_eq, ← Int.natCast_mul, BitVec.ofInt_natCast]

/-! ### Quotients and remainders (R185 to R188)

The model tells the special cases by the operands as words, the specification by their values. -/

theorem divSigned_eq (a b : Word) :
    divSigned a b = if b.toInt = 0 then 0xFFFFFFFF else if a.toInt = -2 ^ 31 ∧ b.toInt = -1 then 0x80000000
      else BitVec.ofInt 32 (a.toInt.tdiv b.toInt) := by
  simp only [divSigned, toInt_eq_zero_iff, division_overflow_iff]

theorem divUnsigned_eq (a b : Word) :
    divUnsigned a b = if b.toNat = 0 then 0xFFFFFFFF else BitVec.ofNat 32 (a.toNat / b.toNat) := by
  simp only [divUnsigned, toNat_eq_zero_iff]

theorem remSigned_eq (a b : Word) :
    remSigned a b = if b.toInt = 0 then a else if a.toInt = -2 ^ 31 ∧ b.toInt = -1 then 0
      else BitVec.ofInt 32 (a.toInt - b.toInt * a.toInt.tdiv b.toInt) := by
  simp only [remSigned, toInt_eq_zero_iff, division_overflow_iff]

theorem remUnsigned_eq (a b : Word) :
    remUnsigned a b = if b.toNat = 0 then a else BitVec.ofNat 32 (a.toNat % b.toNat) := by
  simp only [remUnsigned, toNat_eq_zero_iff]

/-! ### The obligations

As for the integer instructions: each arm of `exec` is a write-back, a law says what it writes, and the word's minor codes select the
arm of `decodeOp`. -/

/-- Settles O21: the high word, a floor quotient by 2^32, is bits 63:32 of the exact product for each reading of the operands. -/
theorem multiplication : Obligations.Multiplication := by
  intro s rd rs1 rs2 a b
  refine ⟨.of_writeback ?_ rfl (mulLow_eq a b), .of_writeback ?_ rfl (highWord_eq (a.toInt * b.toInt)),
    .of_writeback ?_ rfl (highWord_eq (a.toInt * b.toNat)), .of_writeback ?_ rfl (highWord_mul_toNat a b)⟩
  all_goals simp [decodeWord_op, decodeOp]

/-- Settles O22: a zero divisor and the one overflowing pair of operands are the same cases whether told by word or by value. -/
theorem divisionAndRemainder : Obligations.DivisionAndRemainder := by
  intro s rd rs1 rs2 a b overflow
  refine ⟨.of_writeback ?_ rfl (divSigned_eq a b), .of_writeback ?_ rfl (divUnsigned_eq a b),
    .of_writeback ?_ rfl (remSigned_eq a b), .of_writeback ?_ rfl (remUnsigned_eq a b)⟩
  all_goals simp [decodeWord_op, decodeOp]

end Sys2Proof.Machine
end

section
/-! SUPPORT. Proofs of the atomics family (`45_atomics.md`): the words of AMO, the new words of the AMOs as arithmetic, and what a store
followed by a register write leaves behind. -/

namespace Sys2Proof

/-! ### The major opcode of the atomics, and the illegal words of LR.W (R79, R80, R201) -/

section
variable {w : Word}

theorem decodeWord_amo (h : opcodeOf w = 0b0101111) : decodeWord w = decodeAmo w := by
  simp [decodeWord, low_two_of_opcode h rfl, h]

theorem decodeAmo_lrW_illegal (h3 : funct3Of w = 0b010) (h5 : funct5Of w = 0b00010) (h2 : rs2Of w ≠ 0) :
    decodeAmo w = .error .unknownMinor := by
  simp [decodeAmo, h3, h5, h2]

end

end Sys2Proof

namespace Sys2Proof.Machine

/-! ### The new words of the minimum and maximum AMOs as arithmetic (R208 to R211)

The model picks one of the two words, the specification the word of the smaller or greater value. -/

theorem minSigned_eq (old v : Word) : minSigned old v = BitVec.ofInt 32 (min old.toInt v.toInt) := by
  rw [minSigned, min_def, apply_ite (BitVec.ofInt 32), BitVec.ofInt_toInt, BitVec.ofInt_toInt]

theorem maxSigned_eq (old v : Word) : maxSigned old v = BitVec.ofInt 32 (max old.toInt v.toInt) := by
  rw [maxSigned, max_comm, max_def, apply_ite (BitVec.ofInt 32), BitVec.ofInt_toInt, BitVec.ofInt_toInt]

theorem minUnsigned_eq (old v : Word) : minUnsigned old v = BitVec.ofNat 32 (min old.toNat v.toNat) := by
  rw [minUnsigned, min_def, apply_ite (BitVec.ofNat 32)]
  simp only [BitVec.ofNat_toNat, BitVec.setWidth_eq]

theorem maxUnsigned_eq (old v : Word) : maxUnsigned old v = BitVec.ofNat 32 (max old.toNat v.toNat) := by
  rw [maxUnsigned, max_comm, max_def, apply_ite (BitVec.ofNat 32)]
  simp only [BitVec.ofNat_toNat, BitVec.setWidth_eq]

/-! ### A word stored and a register written (R200, R202) -/

/-- What SC.W that succeeds and every AMO do in RAM: the register, the four bytes, and nothing else. -/
theorem State.busStore_writeback_spec (s : State) (addr w : Word) (rd : Reg) (v : Word) (hwf : s.mem.wf = true)
    (hin : s.offset addr + 4 ≤ s.cfg.dramSize) :
    let t := (s.busStore (s.offset addr) .word w).writeback rd v
    t.x rd = (if rd = 0 then 0 else v) ∧ (∀ r, r ≠ rd → t.x r = s.x r) ∧ Retired (s.pc + 4) s t ∧ SameSystem s t ∧
      (∀ k, k < 4 → t.ramByte (addr + BitVec.ofNat 32 k) = w.extractLsb' (8 * k) 8) ∧
      SameMemoryOutside (s.offset addr) 4 s t := by
  obtain ⟨hx, hr, hret, -, -⟩ := (s.busStore (s.offset addr) .word w).writeback_spec rd v
  exact ⟨hx, hr, ⟨hret.pc, hret.cycle, hret.result, hret.halted⟩, (s.busStore_sameSystem _ _ _).writeback rd v,
    fun k hk => s.store_ramByte addr .word w k hwf hin hk, s.busStore_read_other _ .word w⟩

/-! ### The obligations -/

/-- Settles O36: the loaded word is that of its four bytes, and setting the reservation leaves memory as it was. -/
theorem loadReserved : Obligations.LoadReserved := by
  refine ⟨fun s aq rl rd rs1 => ⟨?word, fun hin => ⟨_, rfl, ?completes⟩, fun hout => ⟨_, rfl, ?faults⟩⟩,
    fun aq rl rd rs1 rs2 h2 => ?illegal⟩
  case word => simp [decodeWord_amo, decodeAmo]
  case completes =>
    rw [s.loadReserved_ram rd rs1 hin, s.load_word _ hin]
    exact ⟨rfl, rfl, (s.reserve (s.x rs1)).writeback_spec rd _⟩
  case faults =>
    rw [s.loadReserved_fault rd rs1 hout]
    exact s.raise_spec _ _
  case illegal =>
    rw [decodeWord_amo (opcodeOf_atomicType ..)]
    exact decodeAmo_lrW_illegal (funct3Of_atomicType ..) (funct5Of_atomicType ..) (by rwa [rs2Of_atomicType])

/-- Settles O37: a success stores from the state with the reservation cleared; a failure is a register write in that state. -/
theorem storeConditional : Obligations.StoreConditional := by
  intro s aq rl rd rs1 rs2 hwf addr after
  refine ⟨?word, fun hin ⟨hvalid, haddr⟩ => ⟨_, rfl, ?succeeds⟩, fun hin hlost => ⟨_, rfl, ?fails⟩, fun hout => ⟨_, rfl, ?faults⟩⟩
  case word => simp [decodeWord_amo, decodeAmo]
  case succeeds =>
    rw [s.storeConditional_success rd rs1 rs2 hin hvalid haddr]
    obtain ⟨hx, hr, hret, hsys, hbytes, hother⟩ := s.clearReservation.busStore_writeback_spec addr (s.x rs2) rd 0 hwf hin
    exact ⟨⟨hx, hr, ⟨hret.pc, hret.cycle, hret.result, hret.halted⟩, hsys⟩, hbytes, hother⟩
  case fails =>
    rw [s.storeConditional_failure rd rs1 rs2 hin hlost]
    obtain ⟨hx, hr, hret, hmem, hsys⟩ := s.clearReservation.writeback_spec rd 1
    exact ⟨⟨hx, hr, ⟨hret.pc, hret.cycle, hret.result, hret.halted⟩, hsys⟩, hmem⟩
  case faults =>
    rw [s.storeConditional_fault rd rs1 rs2 hout]
    exact s.raise_spec _ _

/-- Settles O38: the nine arms of `exec` are `State.amo` with a function, which on the old word gives the new word of the statement. -/
theorem atomicMemoryOperations : Obligations.AtomicMemoryOperations := by
  intro s aq rl rd rs1 rs2 hwf addr v b old does
  have amo {funct5 : BitVec 5} {i : Instr} {f : Word → Word → Word} {new : Word}
      (hd : decodeWord (atomicType funct5 aq rl rs2 rs1 rd) = .ok i) (he : exec i s = .next (s.amo rd rs1 rs2 f))
      (hf : f old v = new) : does funct5 i new := by
    refine ⟨hd, fun hin => ⟨_, he, ?completes⟩, fun hout => ⟨_, he, ?faults⟩⟩
    case completes =>
      have hold : s.busLoad (s.offset addr) .word = old := s.load_word addr hin
      rw [s.amo_ram rd rs1 rs2 f hin, hold, hf]
      exact s.busStore_writeback_spec addr new rd old hwf hin
    case faults =>
      rw [s.amo_fault rd rs1 rs2 f hout]
      exact s.raise_spec _ _
  refine ⟨amo ?_ rfl rfl, amo ?_ rfl (BitVec.add_def old v), amo ?_ rfl rfl, amo ?_ rfl rfl, amo ?_ rfl rfl,
    amo ?_ rfl (minSigned_eq old v), amo ?_ rfl (maxSigned_eq old v), amo ?_ rfl (minUnsigned_eq old v),
    amo ?_ rfl (maxUnsigned_eq old v)⟩
  all_goals simp [decodeWord_amo, decodeAmo]

end Sys2Proof.Machine
end

section
/-! SUPPORT. Proofs of the system and CSR family (`46_system_csr.md`): the words of MISC-MEM and SYSTEM, what a CSR access leaves alone,
the CSR table by number, and the numerals of the console. -/

namespace Sys2Proof

/-! ### The major opcodes of the fences and the system instructions (R79) -/

section
variable {w : Word}

theorem decodeWord_miscMem (h : opcodeOf w = 0b0001111) : decodeWord w = decodeMiscMem w := by
  simp [decodeWord, low_two_of_opcode h rfl, h]

theorem decodeWord_system (h : opcodeOf w = 0b1110011) : decodeWord w = decodeSystem w := by
  simp [decodeWord, low_two_of_opcode h rfl, h]

theorem decodeMiscMem_illegal (h3 : 0b001 < funct3Of w) : decodeMiscMem w = .error .unknownMinor := by
  unfold decodeMiscMem
  split
  case h_1 h => exact absurd (h ▸ h3) (by decide)
  case h_2 h => exact absurd (h ▸ h3) (by decide)
  case h_3 => rfl

end

end Sys2Proof

namespace Sys2Proof.Machine

/-! ### No-ops, exceptions and the return from a trap (R220 to R225) -/

/-- Settles O40: the three instructions retire; above `001` no minor code of MISC-MEM is legal. -/
theorem fencesAndWfiAreNoOps : Obligations.FencesAndWfiAreNoOps := by
  intro s fm pred succ imm rs1 rd
  refine ⟨⟨?fence, _, rfl, s.retire_spec⟩, ⟨?fenceI, _, rfl, s.retire_spec⟩, ⟨rfl, _, rfl, s.retire_spec⟩,
    fun funct3 h3 => ?illegal⟩
  case illegal =>
    rw [decodeWord_miscMem (opcodeOf_iType ..)]
    exact decodeMiscMem_illegal (by rwa [funct3Of_iType])
  all_goals simp [decodeWord_miscMem, decodeMiscMem]

/-- R250: the four causes of an environment call do not wrap. -/
theorem causeOf_envCall_toNat (priv : BitVec 2) : (causeOf (.envCall priv)).toNat = 8 + priv.toNat := by
  change (8 + priv.setWidth 32 : Word).toNat = 8 + priv.toNat
  bv_omega

/-- Settles O41: both instructions raise their exception and do nothing before it. -/
theorem environmentCallAndBreakpoint : Obligations.EnvironmentCallAndBreakpoint := by
  intro s
  exact ⟨⟨rfl, _, rfl, s.raise_spec (.envCall s.priv) 0, causeOf_envCall_toNat s.priv, rfl⟩,
    ⟨rfl, _, rfl, s.raise_spec .breakpoint s.pc, rfl, rfl⟩⟩

/-- Settles O42: the step of MRET is `TrapReturn` and the end of an instruction that goes to `mepc`. -/
theorem returnFromTrap : Obligations.ReturnFromTrap := by
  intro s
  exact ⟨rfl, _, rfl, rfl, rfl, rfl, rfl, ⟨rfl, rfl, rfl, Bool.or_false _⟩, fun _ => rfl, fun _ => rfl, ⟨rfl, rfl, rfl⟩,
    ⟨rfl, rfl, rfl⟩, rfl, ⟨rfl, rfl⟩, ⟨rfl, rfl, rfl⟩, rfl, ⟨rfl, rfl, rfl⟩⟩

/-! ### A CSR access (R232) -/

/-- The read and the write of a CSR access reach no general register but `rd`, not the counter and not memory. -/
theorem State.csrAccess_rest (s : State) (rd : Reg) (n : CsrNum) (reads writes : Bool) (f : Word → Word) :
    let t := s.csrAccess rd n reads writes f
    (∀ r, r ≠ rd → t.x r = s.x r) ∧ Retired (s.pc + 4) s t ∧ SameMemory s t := by
  obtain ⟨u, es, old, hread, -, ht⟩ := s.csrAccess_frame rd n reads writes f
  generalize s.csrAccess rd n reads writes f = t at ht ⊢
  have hu := hread.frame
  refine ⟨fun r hr => ?_, ⟨?_, ?_, ?_, ?_⟩, fun off => ?_⟩
  all_goals rw [ht, hu]
  · exact State.writeback_x_other _ _ _ _ hr
  · rfl
  · rfl
  · rfl
  · exact State.writeback_halted _ _ _
  · rfl

/-- Settles O44: the six arms of `exec` are `State.csrAccess` with two conditions and a function. -/
theorem csrInstructions : Obligations.CsrInstructions := by
  intro s rd rs1 c uimm z does
  have hz : immUimm uimm = z := immUimm_eq uimm
  have access {w : Word} {i : Instr} {reads writes : Bool} {P Q : Prop} {f new : Word → Word} (hd : decodeWord w = .ok i)
      (he : exec i s = .next (s.csrAccess rd c reads writes f)) (hreads : reads = true ↔ P) (hwrites : writes = true ↔ Q)
      (hrd : ¬ P → rd = 0) (hf : f = new) : WordMeans w i s (does P Q new) := by
    obtain ⟨old, s1, s2, hread, hwrite, ht⟩ := s.csrAccess_cases rd c reads writes f
    obtain ⟨hr, hret, hmem⟩ := s.csrAccess_rest rd c reads writes f
    rw [ht] at hr hret hmem
    have h2 := s2.writeback_spec rd old
    subst hf
    refine ⟨hd, _, he.trans (congrArg _ ht), old, s1, s2, fun h => ?_, fun h => ?_, fun h => ?_, fun h => ?_, h2.written, hr, hret,
      hmem, h2.system⟩
    · rwa [if_pos (hreads.mpr h)] at hread
    · rw [if_neg (hreads.not.mpr h)] at hread
      exact ⟨hrd h, congrArg Prod.snd hread⟩
    · rwa [if_pos (hwrites.mpr h)] at hwrite
    · rwa [if_neg (hwrites.not.mpr h)] at hwrite
  have always : true = true ↔ True := eq_self_iff_true true
  refine ⟨access ?_ rfl decide_eq_true_iff always not_not.mp rfl,
    access ?_ rfl always decide_eq_true_iff (absurd trivial) rfl,
    access ?_ rfl always decide_eq_true_iff (absurd trivial) rfl,
    access ?_ rfl decide_eq_true_iff always not_not.mp (by rw [hz]),
    access ?_ rfl always decide_eq_true_iff (absurd trivial) (by rw [hz]),
    access ?_ rfl always decide_eq_true_iff (absurd trivial) (by rw [hz])⟩
  all_goals simp [decodeWord_system, decodeSystem]

/-! ### The CSR table by number (R28, R29) -/

/-- A number names a register of the table or none. -/
theorem csrNamed_cases (c : CsrNum) : (c, csrNamed c) ∈ csrTable ∨ csrNamed c = .unlisted := by
  unfold csrNamed
  cases h : csrTable.lookup c with
  | none => exact .inr rfl
  | some r =>
    obtain ⟨before, after, htable, -⟩ := List.lookup_eq_some_iff.mp h
    rw [htable]
    exact .inl (List.mem_append_right _ List.mem_cons_self)

/-- What the numbers outside a list name: a fact about the rows of the table, and `unlisted`. -/
theorem csrNamed_mem_of_notMem {c : CsrNum} {ns : List CsrNum} {rs : List Csr} (h : c ∉ ns)
    (htable : ∀ e ∈ csrTable, e.1 ∉ ns → e.2 ∈ rs) (hunlisted : .unlisted ∈ rs) : csrNamed c ∈ rs := by
  rcases csrNamed_cases c with hc | hc
  · exact htable _ hc h
  · rwa [hc]

/-- R235: the numbers that are not listed, and the four output ports, read zero. -/
theorem State.csrRead_zero (s : State) {c : CsrNum}
    (h : c ∉ [0x300, 0x304, 0x305, 0x340, 0x341, 0x342, 0x343, 0x344, 0xC00, 0xC01, 0xC80, 0xC81, 0x140, 0x141]) :
    s.csrRead c = (0, s) := by
  have hzero : csrNamed c ∈ [Csr.decimalOut, .hexOut, .rawOut, .charOut, .unlisted] :=
    csrNamed_mem_of_notMem h (by decide) (by decide)
  unfold State.csrRead
  generalize csrNamed c = r at hzero
  fin_cases hzero <;> rfl

/-- R236: a number that is not listed, and a register that is read only, ignores a write. -/
theorem State.csrWrite_ignored (s : State) (v : Word) {c : CsrNum}
    (h : c ∉ [0x300, 0x304, 0x305, 0x340, 0x341, 0x342, 0x343, 0x402, 0x139, 0x136, 0x137]) : s.csrWrite c v = s := by
  have hignored : csrNamed c ∈ [Csr.mip, .cycle, .time, .cycleh, .timeh, .keyRead, .keyPending, .unlisted] :=
    csrNamed_mem_of_notMem h (by decide) (by decide)
  unfold State.csrWrite
  generalize csrNamed c = r at hignored
  fin_cases hignored <;> rfl

/-! ### The values of the CSRs as arithmetic (R235) -/

theorem State.mstatus_eq (s : State) :
    s.mstatus = BitVec.ofNat 32 (s.statusMPP.toNat * 2 ^ 11 + s.statusMPIE.toNat * 2 ^ 7 + s.statusMIE.toNat * 2 ^ 3) := by
  have h : ∀ (mpp : BitVec 2) (mpie mie : Bool),
      0#19 ++ mpp ++ 0b000#3 ++ BitVec.ofBool mpie ++ 0b000#3 ++ BitVec.ofBool mie ++ 0b000#3 =
        BitVec.ofNat 32 (mpp.toNat * 2 ^ 11 + mpie.toNat * 2 ^ 7 + mie.toNat * 2 ^ 3) := by decide
  exact h _ _ _

theorem State.mip_eq (s : State) :
    s.mip = if s.timermatch.toNat ≠ 0 ∧ s.timermatch.toNat ≤ s.cycle.toNat then 0x80 else 0 := by
  simp only [State.mip, State.mtip_iff]

theorem lowHalf_eq (v : BitVec 64) : lowHalf v = BitVec.ofNat 32 (v.toNat % 2 ^ 32) :=
  BitVec.eq_of_toNat_eq (by simp [lowHalf])

theorem highHalf_eq (v : BitVec 64) : highHalf v = BitVec.ofNat 32 (v.toNat / 2 ^ 32) :=
  congrArg (BitVec.ofNat 32) (Nat.shiftRight_eq_div_pow v.toNat 32)

theorem State.setMstatus_eq (s : State) (v : Word) :
    s.setMstatus v =
      { s with
        statusMPP := BitVec.ofNat 2 (v.toNat / 2 ^ 11), statusMPIE := v.toNat.testBit 7, statusMIE := v.toNat.testBit 3 } := by
  rw [← Nat.shiftRight_eq_div_pow]
  rfl

/-- Settles O45: each number of the table names its register, whose value as arithmetic a law above gives; any other reads zero. -/
theorem csrReadValues : Obligations.CsrReadValues := by
  intro s closed pending polled
  have hpending : s.keyPending = pending := s.keyPending_eq
  have low : (lowHalf s.cycle, s) = (BitVec.ofNat 32 (s.cycle.toNat % 2 ^ 32), s) := by rw [lowHalf_eq]
  have high : (highHalf s.cycle, s) = (BitVec.ofNat 32 (s.cycle.toNat / 2 ^ 32), s) := by rw [highHalf_eq]
  refine ⟨?mstatus, rfl, rfl, rfl, rfl, rfl, rfl, ?mip, low, low, high, high, ?status, ?key, fun c => s.csrRead_zero⟩
  case mstatus => exact congrArg (·, s) s.mstatus_eq
  case mip => exact congrArg (·, s) s.mip_eq
  case status => exact congrArg (boolWord ·, polled) hpending
  case key =>
    rw [← hpending]
    exact s.readKey_eq _

/-! ### The numerals of the console (R236) -/

theorem decDigit_toNat {d : Nat} (h : d < 10) : (decDigit d).toNat = 48 + d := by
  simp only [decDigit, BitVec.toNat_ofNat]
  omega

/-- With fuel for all its digits, a positive number is rendered as Mathlib's decimal digits, the most significant first. -/
theorem decDigits_eq (fuel n : Nat) (acc : List Byte) (hpos : n ≠ 0) (hfuel : n < 10 ^ fuel) :
    decDigits fuel n acc = (Nat.digits 10 n).reverse.map decDigit ++ acc := by
  induction fuel generalizing n acc with
  | zero => omega
  | succ fuel ih =>
    unfold decDigits
    split
    case isTrue h => simp [Nat.digits_of_lt 10 n hpos h]
    case isFalse h =>
      rw [ih (n / 10) _ (by omega) (by omega), Nat.digits_def' (by decide) (Nat.pos_of_ne_zero hpos)]
      simp

theorem renderDec_eq {v : Word} (h : v.toNat ≠ 0) : renderDec v = (Nat.digits 10 v.toNat).reverse.map decDigit := by
  rw [renderDec, decDigits_eq 10 v.toNat [] h (by omega), List.append_nil]

/-- `Dec(v)` is the shortest decimal numeral of `v`. -/
theorem renderDec_spec (v : Word) :
    (renderDec v).foldl (fun n c => n * 10 + (c.toNat - 48)) 0 = v.toNat ∧
      (∀ c ∈ renderDec v, 48 ≤ c.toNat ∧ c.toNat ≤ 57) ∧ 1 ≤ (renderDec v).length ∧ (renderDec v).length ≤ 10 ∧
      ((renderDec v).length ≠ 1 → (renderDec v).head? ≠ some 48) := by
  by_cases hv : v.toNat = 0
  case pos =>
    obtain rfl : v = 0 := (toNat_eq_zero_iff v).mp hv
    decide
  case neg =>
    have hdigit : ∀ d ∈ Nat.digits 10 v.toNat, (decDigit d).toNat = 48 + d :=
      fun d hd => decDigit_toNat (Nat.digits_lt_base (by decide) hd)
    rw [renderDec_eq hv]
    refine ⟨?value, ?digits, ?nonempty, ?length, fun _ => ?noLeadingZero⟩
    case value =>
      calc _ = (Nat.digits 10 v.toNat).foldr (fun d n => n * 10 + ((decDigit d).toNat - 48)) 0 := by
            rw [List.foldl_map, List.foldl_reverse]
        _ = (Nat.digits 10 v.toNat).foldr (fun d n => d + 10 * n) 0 :=
            List.foldr_ext _ _ _ fun d hd n => by rw [hdigit d hd]; omega
        _ = v.toNat := (Nat.ofDigits_eq_foldr 10 _).symm.trans (Nat.ofDigits_digits 10 _)
    case digits =>
      simp only [List.mem_map, List.mem_reverse]
      rintro _ ⟨d, hd, rfl⟩
      have := Nat.digits_lt_base (by decide) hd
      rw [hdigit d hd]
      omega
    case nonempty =>
      rw [List.length_map, List.length_reverse]
      exact List.length_pos_of_ne_nil (Nat.digits_ne_nil_iff_ne_zero.mpr hv)
    case length =>
      rw [List.length_map, List.length_reverse, Nat.digits_length_le_iff (by decide)]
      omega
    case noLeadingZero =>
      have hne : Nat.digits 10 v.toNat ≠ [] := Nat.digits_ne_nil_iff_ne_zero.mpr hv
      have hlast := Nat.getLast_digit_ne_zero 10 hv
      rw [List.head?_map, List.head?_reverse, List.getLast?_eq_some_getLast hne]
      intro h
      have h48 := congrArg BitVec.toNat (Option.some.inj h)
      rw [hdigit _ (List.getLast_mem hne)] at h48
      exact hlast (Nat.add_left_cancel h48)

/-- The value of a hexadecimal digit in ASCII, letters in the case `upper` says. -/
def hexValue (upper : Bool) (c : Byte) : Nat :=
  if c.toNat ≤ 57 then c.toNat - 48 else if upper then c.toNat - 55 else c.toNat - 87

/-- The byte is a hexadecimal digit in ASCII, a letter in the case `upper` says. -/
def IsHexDigit (upper : Bool) (c : Byte) : Prop :=
  (48 ≤ c.toNat ∧ c.toNat ≤ 57) ∨ (if upper then 65 ≤ c.toNat ∧ c.toNat ≤ 70 else 97 ≤ c.toNat ∧ c.toNat ≤ 102)

theorem hexValue_hexDigit (upper : Bool) (d : BitVec 4) : hexValue upper (hexDigit upper d.toNat) = d.toNat := by
  revert upper d
  decide

theorem isHexDigit_hexDigit (upper : Bool) (d : BitVec 4) : IsHexDigit upper (hexDigit upper d.toNat) := by
  unfold IsHexDigit
  revert upper d
  decide

/-- `Hex8(v)` has the value `v`: the eight nibbles put together. -/
theorem renderHex_foldl (upper : Bool) (v : Word) :
    (renderHex upper v).foldl (fun n c => n * 16 + hexValue upper c) 0 = v.toNat := by
  simp only [renderHex, List.foldl_map, hexValue_hexDigit]
  simp only [List.foldl_cons, List.foldl_nil, BitVec.extractLsb'_toNat, Nat.shiftRight_eq_div_pow]
  omega

theorem renderHex_isHexDigit (upper : Bool) (v : Word) : ∀ c ∈ renderHex upper v, IsHexDigit upper c :=
  List.forall_mem_map.mpr fun shift _ => isHexDigit_hexDigit upper (v.extractLsb' shift 4)

/-- Settles O46: each number of the table names its register, every other ignores the write; the numerals by their digits. -/
theorem csrWriteEffects : Obligations.CsrWriteEffects := by
  refine ⟨fun s v => ?writes, fun v b upper => ?renders, rfl⟩
  case writes =>
    exact ⟨s.setMstatus_eq v, rfl, rfl, rfl, rfl, rfl, rfl, rfl, rfl, rfl, rfl, fun c => s.csrWrite_ignored v⟩
  case renders =>
    obtain ⟨hvalue, hdigits, hpos, hlength, hlead⟩ := renderDec_spec v
    exact ⟨rfl, rfl, hvalue, hdigits, hpos, hlength, hlead, rfl, renderHex_foldl upper v, renderHex_isHexDigit upper v⟩

end Sys2Proof.Machine
end

section
/-! SUPPORT. Proofs of the reset family (`70_reset_and_hazards.md`): the registers after a reset, and the two outcomes of a restart. -/

namespace Sys2Proof.Machine

/-- The hart id in `x10` is 0 too, so every register reads 0 after a reset (R290). -/
theorem State.x_resetHart (s : State) (r : Reg) : s.resetHart.x r = 0 := by
  have hregs : s.resetHart.regs = Vector.replicate 31 0 := Vector.set_replicate_self (h := by decide)
  unfold State.x
  split
  case isTrue => rfl
  case isFalse => simp [hregs]

/-- The loaded memory is the image from offset 0 and zero after it (R296). -/
theorem State.read_loadImage (s : State) (img : List Byte) (off : Nat) : (s.loadImage img).mem.read off = img.getD off 0 := by
  simp [State.loadImage, imageFrom_read]

theorem State.restart_of_fits (s : State) {img : List Byte} (h : img.length ≤ s.cfg.dramSize) :
    s.restart img = .next (s.loadImage img).resetHart :=
  if_pos h

theorem State.restart_of_tooLong (s : State) {img : List Byte} (h : img.length > s.cfg.dramSize) :
    s.restart img = .refused .imageTooLong :=
  if_neg (Nat.not_le_of_gt h)

/-- Settles O57: an image that fits is loaded and the hart reset, where only the registers and the memory need a lemma; a longer
one is refused. -/
theorem restartGivesTheResetState : Obligations.RestartGivesTheResetState := by
  intro s img
  refine ⟨s.restart_of_tooLong, fun hfits => ⟨_, s.restart_of_fits hfits, ?block⟩, rfl, ⟨rfl, rfl, rfl⟩⟩
  case block =>
    exact ⟨(s.loadImage img).x_resetHart, rfl, rfl, rfl, rfl, rfl, rfl, rfl, rfl, rfl, rfl, rfl, rfl, rfl, rfl, rfl, rfl,
      s.read_loadImage img, ⟨rfl, rfl, rfl⟩, rfl, rfl, rfl, rfl⟩

end Sys2Proof.Machine
end

section
/-! SUPPORT. Proofs of the round trips of the encoding (`30_encoding.md` sections 1 to 3): the decoder undoes the encoder, the encoder
undoes the decoder, and the bytes of a word are the word again. -/

namespace Sys2Proof

/-! ### The decoder undoes the encoder -/

theorem evenOffset_iff {n : Nat} (imm : BitVec n) : evenOffset imm = true ↔ imm.getLsbD 0 = false := by
  simp only [evenOffset, Bool.not_eq_true']

/-- The formats of a jump or a branch give an even offset back whole. -/
theorem immJOf_jType_even {imm : BitVec 21} (h : evenOffset imm = true) (rd : Reg) (op : BitVec 7) :
    immJOf (jType imm rd op) = imm :=
  immJOf_jType imm rd op ((evenOffset_iff imm).mp h)

theorem immBOf_bType_even {imm : BitVec 13} (h : evenOffset imm = true) (rs2 rs1 : Reg) (funct3 : BitVec 3) (op : BitVec 7) :
    immBOf (bType imm rs2 rs1 funct3 op) = imm :=
  immBOf_bType imm rs2 rs1 funct3 op ((evenOffset_iff imm).mp h)

/-- Settles O2: the major opcode of the format selects the decoder of the family, the minor codes its arm, and the fields come back. -/
theorem decodeOfEncode : Obligations.DecodeOfEncode := by
  intro i hwf
  cases i
  case lui => simp [encode, decodeWord_lui]
  case auipc => simp [encode, decodeWord_auipc]
  case addi | slti | sltiu | xori | ori | andi | slli | srli | srai => simp [encode, decodeWord_opImm, decodeOpImm]
  case add | sub | sll | slt | sltu | xor | srl | sra | or | and => simp [encode, decodeWord_op, decodeOp]
  case mul | mulh | mulhsu | mulhu | div | divu | rem | remu => simp [encode, decodeWord_op, decodeOp]
  case jal rd imm => simp [encode, decodeWord_jal, immJOf_jType_even hwf]
  case jalr => simp [encode, decodeWord_jalr, decodeJalr]
  case beq | bne | blt | bge | bltu | bgeu => simp [encode, decodeWord_branch, decodeBranch, immBOf_bType_even hwf]
  case lb | lh | lw | lbu | lhu => simp [encode, decodeWord_load, decodeLoad]
  case sb | sh | sw => simp [encode, decodeWord_store, decodeStore]
  case lrW | scW | amoswapW | amoaddW | amoxorW | amoandW | amoorW | amominW | amomaxW | amominuW | amomaxuW =>
    simp [encode, decodeWord_amo, decodeAmo]
  case fence | fenceI => simp [encode, decodeWord_miscMem, decodeMiscMem]
  case ecall | ebreak | mret | wfi => rfl
  case csrrw | csrrs | csrrc | csrrwi | csrrsi | csrrci => simp [encode, decodeWord_system, decodeSystem]

/-! ### The encoder undoes the decoder

A word whose minor codes and major opcode are known is put together again by its format. -/

section
variable {w : Word} {i : Instr} {op f7 : BitVec 7} {f3 : BitVec 3} {f5 : BitVec 5}

theorem iType_of_fields (ho : opcodeOf w = op) (h3 : funct3Of w = f3) : iType (immIOf w) (rs1Of w) f3 (rdOf w) op = w := by
  rw [← ho, ← h3, iType_fields]

theorem rType_of_fields (ho : opcodeOf w = op) (h3 : funct3Of w = f3) (h7 : funct7Of w = f7) :
    rType f7 (rs2Of w) (rs1Of w) f3 (rdOf w) op = w := by
  rw [← ho, ← h3, ← h7, rType_fields]

theorem sType_of_fields (ho : opcodeOf w = op) (h3 : funct3Of w = f3) : sType (immSOf w) (rs2Of w) (rs1Of w) f3 op = w := by
  rw [← ho, ← h3, sType_fields]

theorem bType_of_fields (ho : opcodeOf w = op) (h3 : funct3Of w = f3) : bType (immBOf w) (rs2Of w) (rs1Of w) f3 op = w := by
  rw [← ho, ← h3, bType_fields]

theorem uType_of_fields (ho : opcodeOf w = op) : uType (immUOf w) (rdOf w) op = w := by
  rw [← ho, uType_fields]

theorem jType_of_fields (ho : opcodeOf w = op) : jType (immJOf w) (rdOf w) op = w := by
  rw [← ho, jType_fields]

theorem atomicType_of_fields (ho : opcodeOf w = 0b0101111) (h3 : funct3Of w = 0b010) (h5 : funct5Of w = f5) :
    atomicType f5 (aqOf w) (rlOf w) (rs2Of w) (rs1Of w) (rdOf w) = w := by
  rw [← h5, atomicType_fields w h3 ho]

theorem csrType_of_fields (ho : opcodeOf w = 0b1110011) (h3 : funct3Of w = f3) :
    csrType (csrOf w) (rs1Of w) f3 (rdOf w) = w := by
  rw [← h3, csrType_fields w ho]

theorem fence_of_fields (ho : opcodeOf w = op) (h3 : funct3Of w = f3) :
    iType (fmOf w ++ predOf w ++ succOf w) (rs1Of w) f3 (rdOf w) op = w := by
  rw [fence_fields, iType_of_fields ho h3]

/-- The instruction is one its format can hold, and its word is `w`. -/
def EncodesTo (i : Instr) (w : Word) : Prop := encode i = w ∧ i.wellFormed = true

theorem decodeLoad_encodesTo (ho : opcodeOf w = 0b0000011) (h : decodeLoad w = .ok i) : EncodesTo i w := by
  unfold decodeLoad at h
  split at h <;> cases h
  all_goals exact ⟨iType_of_fields ho ‹_›, rfl⟩

theorem decodeMiscMem_encodesTo (ho : opcodeOf w = 0b0001111) (h : decodeMiscMem w = .ok i) : EncodesTo i w := by
  unfold decodeMiscMem at h
  split at h <;> cases h
  case h_1 h3 => exact ⟨fence_of_fields ho h3, rfl⟩
  case h_2 h3 => exact ⟨iType_of_fields ho h3, rfl⟩

theorem decodeOpImm_encodesTo (ho : opcodeOf w = 0b0010011) (h : decodeOpImm w = .ok i) : EncodesTo i w := by
  unfold decodeOpImm at h
  split at h
  case h_7 h3 =>
    -- funct3 `001`
    split at h <;> cases h
    exact ⟨rType_of_fields ho h3 ‹_›, rfl⟩
  case h_8 h3 =>
    -- funct3 `101`
    split at h <;> cases h
    all_goals exact ⟨rType_of_fields ho h3 ‹_›, rfl⟩
  all_goals
    cases h
    exact ⟨iType_of_fields ho ‹_›, rfl⟩

theorem decodeStore_encodesTo (ho : opcodeOf w = 0b0100011) (h : decodeStore w = .ok i) : EncodesTo i w := by
  unfold decodeStore at h
  split at h <;> cases h
  all_goals exact ⟨sType_of_fields ho ‹_›, rfl⟩

theorem decodeAmo_encodesTo (ho : opcodeOf w = 0b0101111) (h : decodeAmo w = .ok i) : EncodesTo i w := by
  unfold decodeAmo at h
  split at h
  case h_1 h3 =>
    split at h
    case h_1 h5 =>
      -- LR.W
      split at h <;> cases h
      case isTrue h2 => exact ⟨(congrArg (atomicType _ _ _ · _ _) h2.symm).trans (atomicType_of_fields ho h3 h5), rfl⟩
    all_goals cases h
    all_goals exact ⟨atomicType_of_fields ho h3 ‹_›, rfl⟩
  case h_2 => cases h

theorem decodeOp_encodesTo (ho : opcodeOf w = 0b0110011) (h : decodeOp w = .ok i) : EncodesTo i w := by
  unfold decodeOp at h
  split at h
  case h_4 => cases h
  all_goals
    split at h <;> cases h
    all_goals exact ⟨rType_of_fields ho ‹_› ‹_›, rfl⟩

theorem decodeBranch_encodesTo (ho : opcodeOf w = 0b1100011) (h : decodeBranch w = .ok i) : EncodesTo i w := by
  unfold decodeBranch at h
  split at h <;> cases h
  all_goals exact ⟨bType_of_fields ho ‹_›, (evenOffset_iff _).mpr (immBOf_even w)⟩

theorem decodeJalr_encodesTo (ho : opcodeOf w = 0b1100111) (h : decodeJalr w = .ok i) : EncodesTo i w := by
  unfold decodeJalr at h
  split at h <;> cases h
  exact ⟨iType_of_fields ho ‹_›, rfl⟩

theorem decodeSystem_encodesTo (ho : opcodeOf w = 0b1110011) (h : decodeSystem w = .ok i) : EncodesTo i w := by
  unfold decodeSystem at h
  split at h
  case h_1 =>
    -- funct3 `000`: the whole word is compared
    split_ifs at h <;> cases h <;> subst w
    all_goals exact ⟨rfl, rfl⟩
  all_goals cases h
  all_goals exact ⟨csrType_of_fields ho ‹_›, rfl⟩

/-- Settles O3: the arm of the decoder that accepts the word fixes its minor codes, and the format of that arm puts the word together. -/
theorem encodeOfDecode : Obligations.EncodeOfDecode := by
  intro w i h
  unfold decodeWord at h
  split at h
  case isTrue => cases h
  case isFalse =>
    split at h
    case h_1 ho => exact decodeLoad_encodesTo ho h
    case h_2 ho => exact decodeMiscMem_encodesTo ho h
    case h_3 ho => exact decodeOpImm_encodesTo ho h
    case h_4 ho => cases h; exact ⟨uType_of_fields ho, rfl⟩
    case h_5 ho => exact decodeStore_encodesTo ho h
    case h_6 ho => exact decodeAmo_encodesTo ho h
    case h_7 ho => exact decodeOp_encodesTo ho h
    case h_8 ho => cases h; exact ⟨uType_of_fields ho, rfl⟩
    case h_9 ho => exact decodeBranch_encodesTo ho h
    case h_10 ho => exact decodeJalr_encodesTo ho h
    case h_11 ho => cases h; exact ⟨jType_of_fields ho, (evenOffset_iff _).mpr (immJOf_even w)⟩
    case h_12 ho => exact decodeSystem_encodesTo ho h
    case h_13 => cases h

end

/-! ### Bytes (R43, R70) -/

/-- The four bytes of a word, lowest first, are the word again. -/
theorem wordOfBytes_bytesOfWord (w : Word) :
    wordOfBytes (w.extractLsb' 0 8) (w.extractLsb' 8 8) (w.extractLsb' 16 8) (w.extractLsb' 24 8) = w := by
  unfold wordOfBytes
  rw [extract_glue w 16 8 8, extract_glue w 8 _ 8, extract_glue w 0 _ 8]
  exact extract_all w

/-- Settles O5: the four bytes are the word of the instruction again. -/
theorem decodeOfEncodedBytes : Obligations.DecodeOfEncodedBytes := by
  intro i rest hwf
  simp only [encodeBytes, bytesOfWord, List.cons_append, List.nil_append, decode, wordOfBytes_bytesOfWord, decodeOfEncode i hwf]

/-- Settles O1: fourteen closed words. -/
theorem workedWordsDecode : Obligations.WorkedWordsDecode :=
  ⟨rfl, rfl, rfl, rfl, rfl, rfl, rfl, rfl, rfl, rfl, rfl, rfl, rfl, rfl⟩

end Sys2Proof
end

section
/-! SUPPORT. Proof that the decoder is the opcode table (`30_encoding.md` R80, R81): a word of a row decodes to the row's instruction. -/

namespace Sys2Proof

/-- The word decodes to an instruction of that mnemonic. -/
def DecodesAs (w : Word) (m : String) : Prop := ∃ i, decodeWord w = .ok i ∧ i.mnemonic = m

/-- A field that the mask of a row keeps whole is that of the row's match column. -/
theorem extractLsb'_of_row {w mask pattern : Word} (h : w &&& mask = pattern) (k n : Nat)
    (hm : mask.extractLsb' k n = BitVec.allOnes n) : w.extractLsb' k n = pattern.extractLsb' k n := by
  rw [← h, BitVec.extractLsb'_and, hm, BitVec.and_allOnes]

/-! ### A word of a row is one its format puts together

By the mask columns of the table; the decoder then gives back the instruction the format encodes. -/

section
variable {w p : Word}

theorem decodesAs_of_encode (i : Instr) (he : encode i = w) (hwf : i.wellFormed = true) : DecodesAs w i.mnemonic :=
  ⟨i, he ▸ decodeOfEncode i hwf, rfl⟩

/-- The mask of the U- and J-type: the major opcode. -/
theorem decodesAs_opcode (h : w &&& 0x0000007f = p) (i : Instr)
    (he : opcodeOf w = opcodeOf p → encode i = w) (hwf : i.wellFormed = true) : DecodesAs w i.mnemonic :=
  decodesAs_of_encode i (he (extractLsb'_of_row h 0 7 rfl)) hwf

/-- The mask of the I-, S- and B-type: the major opcode and funct3. -/
theorem decodesAs_funct3 (h : w &&& 0x0000707f = p) (i : Instr)
    (he : opcodeOf w = opcodeOf p → funct3Of w = funct3Of p → encode i = w) (hwf : i.wellFormed = true) :
    DecodesAs w i.mnemonic :=
  decodesAs_of_encode i (he (extractLsb'_of_row h 0 7 rfl) (extractLsb'_of_row h 12 3 rfl)) hwf

/-- The mask of the R-type and the shifts: the major opcode, funct3 and funct7. -/
theorem decodesAs_funct7 (h : w &&& 0xfe00707f = p) (i : Instr)
    (he : opcodeOf w = opcodeOf p → funct3Of w = funct3Of p → funct7Of w = funct7Of p → encode i = w)
    (hwf : i.wellFormed = true) : DecodesAs w i.mnemonic :=
  decodesAs_of_encode i
    (he (extractLsb'_of_row h 0 7 rfl) (extractLsb'_of_row h 12 3 rfl) (extractLsb'_of_row h 25 7 rfl)) hwf

/-- The mask of SC.W and the AMOs: the major opcode, funct3 and funct5. -/
theorem decodesAs_funct5 (h : w &&& 0xf800707f = p) (i : Instr)
    (he : opcodeOf w = opcodeOf p → funct3Of w = funct3Of p → funct5Of w = funct5Of p → encode i = w)
    (hwf : i.wellFormed = true) : DecodesAs w i.mnemonic :=
  decodesAs_of_encode i
    (he (extractLsb'_of_row h 0 7 rfl) (extractLsb'_of_row h 12 3 rfl) (extractLsb'_of_row h 27 5 rfl)) hwf

/-- The mask of LR.W: rs2 too, which is zero. -/
theorem decodesAs_lrW (h : w &&& 0xf9f0707f = 0x1000202f) : DecodesAs w "LR.W" := by
  have h2 : rs2Of w = 0 := congrArg BitVec.toFin (extractLsb'_of_row h 20 5 rfl)
  have hw := atomicType_of_fields (extractLsb'_of_row h 0 7 rfl) (extractLsb'_of_row h 12 3 rfl) (extractLsb'_of_row h 27 5 rfl)
  rw [h2] at hw
  exact decodesAs_of_encode (.lrW (aqOf w) (rlOf w) (rdOf w) (rs1Of w)) hw rfl

/-- The mask of the instructions of one word. -/
theorem decodesAs_word (h : w &&& 0xffffffff = p) (i : Instr) (he : encode i = p) (hwf : i.wellFormed = true) :
    DecodesAs w i.mnemonic :=
  decodesAs_of_encode i (he.trans (h.symm.trans BitVec.and_allOnes)) hwf

/-! ### Row by row -/

theorem decodesAs_rowsIntAlu : ∀ r ∈ rowsIntAlu, w &&& r.mask = r.pattern → DecodesAs w r.mnemonic := by
  simp only [rowsIntAlu, List.forall_mem_cons, List.not_mem_nil, false_imp_iff, implies_true, and_true]
  exact ⟨
    fun h => decodesAs_opcode h (.lui (rdOf w) (immUOf w)) uType_of_fields rfl,
    fun h => decodesAs_opcode h (.auipc (rdOf w) (immUOf w)) uType_of_fields rfl,
    fun h => decodesAs_funct3 h (.addi (rdOf w) (rs1Of w) (immIOf w)) iType_of_fields rfl,
    fun h => decodesAs_funct3 h (.slti (rdOf w) (rs1Of w) (immIOf w)) iType_of_fields rfl,
    fun h => decodesAs_funct3 h (.sltiu (rdOf w) (rs1Of w) (immIOf w)) iType_of_fields rfl,
    fun h => decodesAs_funct3 h (.xori (rdOf w) (rs1Of w) (immIOf w)) iType_of_fields rfl,
    fun h => decodesAs_funct3 h (.ori (rdOf w) (rs1Of w) (immIOf w)) iType_of_fields rfl,
    fun h => decodesAs_funct3 h (.andi (rdOf w) (rs1Of w) (immIOf w)) iType_of_fields rfl,
    fun h => decodesAs_funct7 h (.slli (rdOf w) (rs1Of w) (shamtOf w)) rType_of_fields rfl,
    fun h => decodesAs_funct7 h (.srli (rdOf w) (rs1Of w) (shamtOf w)) rType_of_fields rfl,
    fun h => decodesAs_funct7 h (.srai (rdOf w) (rs1Of w) (shamtOf w)) rType_of_fields rfl,
    fun h => decodesAs_funct7 h (.add (rdOf w) (rs1Of w) (rs2Of w)) rType_of_fields rfl,
    fun h => decodesAs_funct7 h (.sub (rdOf w) (rs1Of w) (rs2Of w)) rType_of_fields rfl,
    fun h => decodesAs_funct7 h (.sll (rdOf w) (rs1Of w) (rs2Of w)) rType_of_fields rfl,
    fun h => decodesAs_funct7 h (.slt (rdOf w) (rs1Of w) (rs2Of w)) rType_of_fields rfl,
    fun h => decodesAs_funct7 h (.sltu (rdOf w) (rs1Of w) (rs2Of w)) rType_of_fields rfl,
    fun h => decodesAs_funct7 h (.xor (rdOf w) (rs1Of w) (rs2Of w)) rType_of_fields rfl,
    fun h => decodesAs_funct7 h (.srl (rdOf w) (rs1Of w) (rs2Of w)) rType_of_fields rfl,
    fun h => decodesAs_funct7 h (.sra (rdOf w) (rs1Of w) (rs2Of w)) rType_of_fields rfl,
    fun h => decodesAs_funct7 h (.or (rdOf w) (rs1Of w) (rs2Of w)) rType_of_fields rfl,
    fun h => decodesAs_funct7 h (.and (rdOf w) (rs1Of w) (rs2Of w)) rType_of_fields rfl⟩

theorem decodesAs_rowsControl : ∀ r ∈ rowsControl, w &&& r.mask = r.pattern → DecodesAs w r.mnemonic := by
  have hB : evenOffset (immBOf w) = true := (evenOffset_iff _).mpr (immBOf_even w)
  have hJ : evenOffset (immJOf w) = true := (evenOffset_iff _).mpr (immJOf_even w)
  simp only [rowsControl, List.forall_mem_cons, List.not_mem_nil, false_imp_iff, implies_true, and_true]
  exact ⟨
    fun h => decodesAs_opcode h (.jal (rdOf w) (immJOf w)) jType_of_fields hJ,
    fun h => decodesAs_funct3 h (.jalr (rdOf w) (rs1Of w) (immIOf w)) iType_of_fields rfl,
    fun h => decodesAs_funct3 h (.beq (rs1Of w) (rs2Of w) (immBOf w)) bType_of_fields hB,
    fun h => decodesAs_funct3 h (.bne (rs1Of w) (rs2Of w) (immBOf w)) bType_of_fields hB,
    fun h => decodesAs_funct3 h (.blt (rs1Of w) (rs2Of w) (immBOf w)) bType_of_fields hB,
    fun h => decodesAs_funct3 h (.bge (rs1Of w) (rs2Of w) (immBOf w)) bType_of_fields hB,
    fun h => decodesAs_funct3 h (.bltu (rs1Of w) (rs2Of w) (immBOf w)) bType_of_fields hB,
    fun h => decodesAs_funct3 h (.bgeu (rs1Of w) (rs2Of w) (immBOf w)) bType_of_fields hB⟩

theorem decodesAs_rowsLoadStore : ∀ r ∈ rowsLoadStore, w &&& r.mask = r.pattern → DecodesAs w r.mnemonic := by
  simp only [rowsLoadStore, List.forall_mem_cons, List.not_mem_nil, false_imp_iff, implies_true, and_true]
  exact ⟨
    fun h => decodesAs_funct3 h (.lb (rdOf w) (rs1Of w) (immIOf w)) iType_of_fields rfl,
    fun h => decodesAs_funct3 h (.lh (rdOf w) (rs1Of w) (immIOf w)) iType_of_fields rfl,
    fun h => decodesAs_funct3 h (.lw (rdOf w) (rs1Of w) (immIOf w)) iType_of_fields rfl,
    fun h => decodesAs_funct3 h (.lbu (rdOf w) (rs1Of w) (immIOf w)) iType_of_fields rfl,
    fun h => decodesAs_funct3 h (.lhu (rdOf w) (rs1Of w) (immIOf w)) iType_of_fields rfl,
    fun h => decodesAs_funct3 h (.sb (rs1Of w) (rs2Of w) (immSOf w)) sType_of_fields rfl,
    fun h => decodesAs_funct3 h (.sh (rs1Of w) (rs2Of w) (immSOf w)) sType_of_fields rfl,
    fun h => decodesAs_funct3 h (.sw (rs1Of w) (rs2Of w) (immSOf w)) sType_of_fields rfl⟩

theorem decodesAs_rowsMulDiv : ∀ r ∈ rowsMulDiv, w &&& r.mask = r.pattern → DecodesAs w r.mnemonic := by
  simp only [rowsMulDiv, List.forall_mem_cons, List.not_mem_nil, false_imp_iff, implies_true, and_true]
  exact ⟨
    fun h => decodesAs_funct7 h (.mul (rdOf w) (rs1Of w) (rs2Of w)) rType_of_fields rfl,
    fun h => decodesAs_funct7 h (.mulh (rdOf w) (rs1Of w) (rs2Of w)) rType_of_fields rfl,
    fun h => decodesAs_funct7 h (.mulhsu (rdOf w) (rs1Of w) (rs2Of w)) rType_of_fields rfl,
    fun h => decodesAs_funct7 h (.mulhu (rdOf w) (rs1Of w) (rs2Of w)) rType_of_fields rfl,
    fun h => decodesAs_funct7 h (.div (rdOf w) (rs1Of w) (rs2Of w)) rType_of_fields rfl,
    fun h => decodesAs_funct7 h (.divu (rdOf w) (rs1Of w) (rs2Of w)) rType_of_fields rfl,
    fun h => decodesAs_funct7 h (.rem (rdOf w) (rs1Of w) (rs2Of w)) rType_of_fields rfl,
    fun h => decodesAs_funct7 h (.remu (rdOf w) (rs1Of w) (rs2Of w)) rType_of_fields rfl⟩

theorem decodesAs_rowsAtomic : ∀ r ∈ rowsAtomic, w &&& r.mask = r.pattern → DecodesAs w r.mnemonic := by
  simp only [rowsAtomic, List.forall_mem_cons, List.not_mem_nil, false_imp_iff, implies_true, and_true]
  exact ⟨
    decodesAs_lrW,
    fun h => decodesAs_funct5 h (.scW (aqOf w) (rlOf w) (rdOf w) (rs1Of w) (rs2Of w)) atomicType_of_fields rfl,
    fun h => decodesAs_funct5 h (.amoswapW (aqOf w) (rlOf w) (rdOf w) (rs1Of w) (rs2Of w)) atomicType_of_fields rfl,
    fun h => decodesAs_funct5 h (.amoaddW (aqOf w) (rlOf w) (rdOf w) (rs1Of w) (rs2Of w)) atomicType_of_fields rfl,
    fun h => decodesAs_funct5 h (.amoxorW (aqOf w) (rlOf w) (rdOf w) (rs1Of w) (rs2Of w)) atomicType_of_fields rfl,
    fun h => decodesAs_funct5 h (.amoandW (aqOf w) (rlOf w) (rdOf w) (rs1Of w) (rs2Of w)) atomicType_of_fields rfl,
    fun h => decodesAs_funct5 h (.amoorW (aqOf w) (rlOf w) (rdOf w) (rs1Of w) (rs2Of w)) atomicType_of_fields rfl,
    fun h => decodesAs_funct5 h (.amominW (aqOf w) (rlOf w) (rdOf w) (rs1Of w) (rs2Of w)) atomicType_of_fields rfl,
    fun h => decodesAs_funct5 h (.amomaxW (aqOf w) (rlOf w) (rdOf w) (rs1Of w) (rs2Of w)) atomicType_of_fields rfl,
    fun h => decodesAs_funct5 h (.amominuW (aqOf w) (rlOf w) (rdOf w) (rs1Of w) (rs2Of w)) atomicType_of_fields rfl,
    fun h => decodesAs_funct5 h (.amomaxuW (aqOf w) (rlOf w) (rdOf w) (rs1Of w) (rs2Of w)) atomicType_of_fields rfl⟩

theorem decodesAs_rowsSystem : ∀ r ∈ rowsSystem, w &&& r.mask = r.pattern → DecodesAs w r.mnemonic := by
  simp only [rowsSystem, List.forall_mem_cons, List.not_mem_nil, false_imp_iff, implies_true, and_true]
  exact ⟨
    fun h => decodesAs_funct3 h (.fence (fmOf w) (predOf w) (succOf w) (rs1Of w) (rdOf w)) fence_of_fields rfl,
    fun h => decodesAs_funct3 h (.fenceI (immIOf w) (rs1Of w) (rdOf w)) iType_of_fields rfl,
    fun h => decodesAs_word h .ecall rfl rfl,
    fun h => decodesAs_word h .ebreak rfl rfl,
    fun h => decodesAs_word h .mret rfl rfl,
    fun h => decodesAs_word h .wfi rfl rfl,
    fun h => decodesAs_funct3 h (.csrrw (rdOf w) (csrOf w) (rs1Of w)) csrType_of_fields rfl,
    fun h => decodesAs_funct3 h (.csrrs (rdOf w) (csrOf w) (rs1Of w)) csrType_of_fields rfl,
    fun h => decodesAs_funct3 h (.csrrc (rdOf w) (csrOf w) (rs1Of w)) csrType_of_fields rfl,
    fun h => decodesAs_funct3 h (.csrrwi (rdOf w) (csrOf w) (uimmOf w)) csrType_of_fields rfl,
    fun h => decodesAs_funct3 h (.csrrsi (rdOf w) (csrOf w) (uimmOf w)) csrType_of_fields rfl,
    fun h => decodesAs_funct3 h (.csrrci (rdOf w) (csrOf w) (uimmOf w)) csrType_of_fields rfl⟩

theorem decodesAs_of_row {r : OpRow} (hr : r ∈ opcodeTable) (h : w &&& r.mask = r.pattern) : DecodesAs w r.mnemonic := by
  simp only [opcodeTable, List.mem_append, or_assoc] at hr
  rcases hr with hr | hr | hr | hr | hr | hr
  · exact decodesAs_rowsIntAlu r hr h
  · exact decodesAs_rowsControl r hr h
  · exact decodesAs_rowsLoadStore r hr h
  · exact decodesAs_rowsMulDiv r hr h
  · exact decodesAs_rowsAtomic r hr h
  · exact decodesAs_rowsSystem r hr h

end

/-! ### The table -/

theorem OpRow.matches_iff (r : OpRow) (w : Word) : r.matches w = true ↔ w &&& r.mask = r.pattern := beq_iff_eq

theorem opcodeTable_mnemonic_nodup : (opcodeTable.map OpRow.mnemonic).Nodup := by decide

/-- A row is known by its mnemonic. -/
theorem opcodeTable_mnemonic_inj {r r' : OpRow} (hr : r ∈ opcodeTable) (hr' : r' ∈ opcodeTable)
    (h : r.mnemonic = r'.mnemonic) : r = r' :=
  List.inj_on_of_nodup_map opcodeTable_mnemonic_nodup hr hr' h

/-- A row matches exactly the words that decode to its mnemonic (R80). -/
theorem matches_iff_decodesAs {r : OpRow} (hr : r ∈ opcodeTable) (w : Word) :
    r.matches w = true ↔ DecodesAs w r.mnemonic := by
  rw [OpRow.matches_iff]
  constructor
  · exact decodesAs_of_row hr
  · rintro ⟨i, hi, hm⟩
    obtain ⟨r', hr', hm', hw⟩ := decodeWord_hasRow hi
    obtain rfl := opcodeTable_mnemonic_inj hr' hr (hm'.trans hm)
    exact hw

theorem DecodesAs.unique {w : Word} {m m' : String} (h : DecodesAs w m) (h' : DecodesAs w m') : m = m' := by
  obtain ⟨i, hi, rfl⟩ := h
  obtain ⟨i', hi', rfl⟩ := h'
  rw [hi] at hi'
  cases hi'
  rfl

/-- Settles O4: a word of a row is put together by the format of the row, so it decodes to the row's instruction, and the decoder gives
one answer for a word. -/
theorem decodeIsTheOpcodeTable : Obligations.DecodeIsTheOpcodeTable := by
  refine ⟨rfl, fun w r hr => matches_iff_decodesAs hr w, fun w r r' hr hr' h h' => ?disjoint, fun w => ⟨fun h => ?illegal, ?legal⟩⟩
  case disjoint =>
    rw [matches_iff_decodesAs hr] at h
    rw [matches_iff_decodesAs hr'] at h'
    exact opcodeTable_mnemonic_inj hr hr' (h.unique h')
  case illegal =>
    exact decodeWord_error_of_noRow fun r hr hw => by simpa [(r.matches_iff w).mpr hw] using h r hr
  case legal =>
    rintro ⟨e, he⟩ r hr
    by_contra hm
    obtain ⟨i, hi, -⟩ := (matches_iff_decodesAs hr w).mp (Bool.not_eq_false _ ▸ hm)
    rw [he] at hi
    cases hi

end Sys2Proof
end

section
/-! SUPPORT. Proofs of the rules over every instruction: an instruction retires or raises one exception, said once for all 68, and what
follows for traps, the mode, memory, the reservation and the end of the run. -/

namespace Sys2Proof.Machine

/-! ### How an instruction ends (R90, R95, R96) -/

/-- The instructions that change memory (R66). -/
def writeMnemonics : List String := storeMnemonics ++ amoMnemonics ++ ["SC.W"]

/-- The instruction may raise that exception in that state (R252, R255). -/
def MayRaise (i : Instr) (s : State) (e : Exception) : Prop :=
  (i = .ecall ∧ e = .envCall s.priv) ∨ (i = .ebreak ∧ e = .breakpoint) ∨
    (i.mnemonic ∈ loadMnemonics ++ ["LR.W"] ∧ e = .loadAccessFault) ∨ (i.mnemonic ∈ writeMnemonics ∧ e = .storeAccessFault)

/-- The instruction is the store of that width. -/
def IsStore (i : Instr) (rs1 rs2 : Reg) (imm : BitVec 12) (n : Width) : Prop :=
  (n = .byte ∧ i = .sb rs1 rs2 imm) ∨ (n = .half ∧ i = .sh rs1 rs2 imm) ∨ (n = .word ∧ i = .sw rs1 rs2 imm)

/-- The instruction is a store to SYSCON_ADDR, and the value it hands the device requests that result (R56). -/
def Requests (i : Instr) (s : State) (result : StepResult) : Prop :=
  ∃ rs1 rs2 imm n, IsStore i rs1 rs2 imm n ∧ s.storeAddr rs1 imm = s.cfg.sysconAddr ∧
    result = requestOf s.cfg.toParams (n.truncate (s.x rs2))

/-- What every instruction that raises no exception leaves as it was, or changes in one way only. The defaults are those of an
instruction that touches only general registers and pc. -/
structure Retires (i : Instr) (s t : State) : Prop where
  cfg : t.cfg = s.cfg := by rfl
  cycle : t.cycle = s.cycle + 1 := by rfl
  halted : t.halted = (s.halted || t.result.endsRun) := by rfl
  result : t.result = .normal ∨ Requests i s t.result := by exact .inl rfl
  priv : i ≠ .mret → t.priv = s.priv := by exact fun _ => rfl
  reservation : i.mnemonic ≠ "LR.W" → i.mnemonic ≠ "SC.W" → SameReservation s t := by exact fun _ _ => ⟨rfl, rfl⟩
  memory : i.mnemonic ∉ writeMnemonics → t.mem = s.mem := by exact fun _ => rfl
  memCanonical : s.mem.wf = true → t.mem.wf = true := by exact id
  memInRange : s.mem.below s.cfg.dramSize = true → t.mem.below s.cfg.dramSize = true := by exact id
  inputClosed : t.inputClosed = s.inputClosed := by rfl
  eofLatch : t.eofLatch = s.eofLatch ∨ t.eofLatch = (s.eofLatch || s.inputClosed) := by exact .inl rfl

section
variable {i : Instr} {s t u : State}

theorem IsStore.mem_writeMnemonics {rs1 rs2 : Reg} {imm : BitVec 12} {n : Width} (h : IsStore i rs1 rs2 imm n) :
    i.mnemonic ∈ writeMnemonics := by
  rcases h with ⟨-, rfl⟩ | ⟨-, rfl⟩ | ⟨-, rfl⟩
  · change "SB" ∈ writeMnemonics; decide
  · change "SH" ∈ writeMnemonics; decide
  · change "SW" ∈ writeMnemonics; decide

theorem MayRaise.loadFault (hm : i.mnemonic ∈ loadMnemonics ++ ["LR.W"]) : MayRaise i s .loadAccessFault :=
  .inr (.inr (.inl ⟨hm, rfl⟩))

theorem MayRaise.storeFault (hm : i.mnemonic ∈ writeMnemonics) : MayRaise i s .storeAccessFault :=
  .inr (.inr (.inr ⟨hm, rfl⟩))

theorem mem_writeMnemonics_of_amo (hm : i.mnemonic ∈ amoMnemonics) : i.mnemonic ∈ writeMnemonics :=
  List.mem_append_left _ (List.mem_append_right _ hm)

theorem scW_mem_writeMnemonics (aq rl : Bool) (rd rs1 rs2 : Reg) : (Instr.scW aq rl rd rs1 rs2).mnemonic ∈ writeMnemonics := by
  change "SC.W" ∈ writeMnemonics
  decide

/-- A load that completes retires. -/
theorem ReadFrom.retires (h : ReadFrom s u) (i : Instr) (rd : Reg) (v : Word) : Retires i s (u.writeback rd v) := by
  have hlatch := h.eofLatch
  rw [h.frame]
  exact { eofLatch := hlatch }

theorem State.csrAccess_retires (s : State) (i : Instr) (rd : Reg) (n : CsrNum) (reads writes : Bool) (f : Word → Word) :
    Retires i s (s.csrAccess rd n reads writes f) := by
  obtain ⟨u, es, old, hread, -, ht⟩ := s.csrAccess_frame rd n reads writes f
  have hlatch := hread.eofLatch
  rw [ht, hread.frame]
  exact { eofLatch := hlatch }

/-- What a word stored to RAM keeps, the instruction being one that writes memory. -/
theorem State.busStore_retires (s : State) (off : Nat) (n : Width) (v : Word) (hw : i.mnemonic ∈ writeMnemonics) :
    Retires i s (s.busStore off n v).retire :=
  { memory := fun h => absurd hw h
    memCanonical := s.busStore_wf off n v
    memInRange := s.busStore_below off n v }

/-- Writing a register besides keeps all that. -/
theorem Retires.writeback (h : Retires i s u.retire) (rd : Reg) (v : Word) : Retires i s (u.writeback rd v) :=
  { h with
    reservation := fun hlr hsc =>
      let ⟨hvalid, haddr⟩ := h.reservation hlr hsc
      ⟨hvalid, haddr⟩ }

theorem State.storeFrom_ends {rs1 rs2 : Reg} {imm : BitVec 12} {n : Width} (hi : IsStore i rs1 rs2 imm n) :
    let t := s.storeFrom (s.storeAddr rs1 imm) n (s.x rs2)
    Retires i s t ∨ t = s.raise ⟨.storeAccessFault, s.storeAddr rs1 imm⟩ := by
  intro t
  rcases s.storeFrom_cases (s.storeAddr rs1 imm) n (s.x rs2) with ⟨b, h⟩ | ⟨m, h⟩ | ⟨ha, h⟩ | h | h
  all_goals rw [show t = _ from h]
  · exact .inl {}
  · exact .inl {}
  · exact .inl { result := .inr ⟨rs1, rs2, imm, n, hi, ha, rfl⟩ }
  · exact .inl (s.busStore_retires _ n _ hi.mem_writeMnemonics)
  · exact .inr rfl

theorem State.loadReserved_ends (aq rl : Bool) (rd rs1 : Reg) :
    Retires (.lrW aq rl rd rs1) s (s.loadReserved rd rs1) ∨ s.loadReserved rd rs1 = s.raise ⟨.loadAccessFault, s.x rs1⟩ := by
  rcases s.loadReserved_cases rd rs1 with ⟨v, h⟩ | h
  · rw [h]
    exact .inl { reservation := fun h _ => absurd rfl h }
  · exact .inr h

theorem State.storeConditional_ends (aq rl : Bool) (rd rs1 rs2 : Reg) :
    Retires (.scW aq rl rd rs1 rs2) s (s.storeConditional rd rs1 rs2) ∨
      s.storeConditional rd rs1 rs2 = s.raise ⟨.storeAccessFault, s.x rs1⟩ := by
  rcases s.storeConditional_cases rd rs1 rs2 with h | h | h
  · rw [h]
    have hstore := s.busStore_retires (s.offset (s.x rs1)) .word (s.x rs2) (scW_mem_writeMnemonics aq rl rd rs1 rs2)
    exact .inl { hstore with reservation := fun _ h => absurd rfl h }
  · rw [h]
    exact .inl { reservation := fun _ h => absurd rfl h }
  · exact .inr h

theorem State.amo_ends (rd rs1 rs2 : Reg) (f : Word → Word → Word) (hm : i.mnemonic ∈ amoMnemonics) :
    Retires i s (s.amo rd rs1 rs2 f) ∨ s.amo rd rs1 rs2 f = s.raise ⟨.storeAccessFault, s.x rs1⟩ := by
  rcases s.amo_cases rd rs1 rs2 f with ⟨v, w, h⟩ | h
  · rw [h]
    exact .inl ((s.busStore_retires _ .word w (mem_writeMnemonics_of_amo hm)).writeback rd v)
  · exact .inr h

/-- Every instruction retires, or raises an exception it may raise and does nothing else. -/
theorem exec_ends (h : exec i s = .next t) : Retires i s t ∨ ∃ e info, MayRaise i s e ∧ t = s.raise ⟨e, info⟩ := by
  have faults {e : Exception} {info : Word} (he : MayRaise i s e) (ht : Retires i s t ∨ t = s.raise ⟨e, info⟩) :
      Retires i s t ∨ ∃ e info, MayRaise i s e ∧ t = s.raise ⟨e, info⟩ :=
    ht.imp_right fun ht => ⟨e, info, he, ht⟩
  cases exec_cases h with
  | register rd v p => exact .inl {}
  | pcOnly p => exact .inl {}
  | load u rd v hu => exact .inl (hu.retires i rd v)
  | loadFault addr hm => exact faults (.loadFault (List.mem_append_left _ hm)) (.inr rfl)
  | store rs1 rs2 imm n hi => exact faults (.storeFault (IsStore.mem_writeMnemonics hi)) (State.storeFrom_ends hi)
  | loadReserved aq rl rd rs1 hi =>
    subst hi
    exact faults (.loadFault (List.mem_append_right _ (.head _))) (State.loadReserved_ends aq rl rd rs1)
  | storeConditional aq rl rd rs1 rs2 hi =>
    subst hi
    exact faults (.storeFault (scW_mem_writeMnemonics ..)) (State.storeConditional_ends aq rl rd rs1 rs2)
  | amo rd rs1 rs2 f hm => exact faults (.storeFault (mem_writeMnemonics_of_amo hm)) (State.amo_ends rd rs1 rs2 f hm)
  | ecall hi => exact .inr ⟨_, _, .inl ⟨hi, rfl⟩, rfl⟩
  | ebreak hi => exact .inr ⟨_, _, .inr (.inl ⟨hi, rfl⟩), rfl⟩
  | mret hi => exact .inl { priv := fun h => absurd hi h }
  | csr rd n reads writes f => exact .inl (s.csrAccess_retires i rd n reads writes f)

/-! ### The result of an instruction (R97) -/

/-- A device requests nothing or the end of the run, never a trap. -/
theorem requestOf_cases (p : Params) (w : Word) :
    (requestOf p w = .powerOff ∧ w = p.sysconPowerOff) ∨ (requestOf p w = .resetRequest ∧ w = p.sysconReset) ∨
      requestOf p w = .normal := by
  unfold requestOf
  split_ifs with hoff hreset
  · exact .inl ⟨rfl, hoff⟩
  · exact .inr (.inl ⟨rfl, hreset⟩)
  · exact .inr (.inr rfl)

theorem StepResult.endsRun_iff (r : StepResult) : r.endsRun = true ↔ r = .powerOff ∨ r = .resetRequest := by
  cases r <;> simp [StepResult.endsRun]

theorem Requests.not_trapped {result : StepResult} (h : Requests i s result) (e : Exception) : result ≠ .trapped e := by
  obtain ⟨rs1, rs2, imm, n, -, -, rfl⟩ := h
  rcases requestOf_cases s.cfg.toParams (n.truncate (s.x rs2)) with ⟨h, -⟩ | ⟨h, -⟩ | h <;> simp [h]

theorem Retires.not_trapped (h : Retires i s t) (e : Exception) : t.result ≠ .trapped e := by
  rcases h.result with h | h
  · simp [h]
  · exact h.not_trapped e

/-- An instruction whose result is a trap raised that exception. -/
theorem exec_trapped {e : Exception} (h : exec i s = .next t) (ht : t.result = .trapped e) :
    MayRaise i s e ∧ ∃ info, t = s.raise ⟨e, info⟩ := by
  rcases exec_ends h with hret | ⟨e', info, he, rfl⟩
  · exact absurd ht (hret.not_trapped e)
  · cases ht
    exact ⟨he, info, rfl⟩

end

/-! ### How a step ends (R90) -/

/-- Everything a step can do after the host's turn gave the state `u`. -/
inductive StepCase (u : State) : State → Prop where
  | interrupt (hint : u.timerInterruptReady = true) : StepCase u u.takeTimerInterrupt
  | instruction (hint : u.timerInterruptReady = false) (i : Instr) (t : State) (hi : u.fetchInstr = .ok i)
      (h : exec i u = .next t) : StepCase u t
  | fault (hint : u.timerInterruptReady = false) (r : Raised) (hr : u.fetchInstr = .error r) : StepCase u (u.raise r)

/-- A step that answers a next state is of a run that has not ended, and in one of the cases. -/
theorem step_cases {s t : State} (h : step s = .next t) : s.hostTurn.halted = false ∧ StepCase s.hostTurn t := by
  simp only [step, hartStep] at h
  generalize s.hostTurn = u at h ⊢
  split_ifs at h with hhalt hint
  · cases h
    exact ⟨by simpa using hhalt, .interrupt hint⟩
  · have hint : u.timerInterruptReady = false := by simpa using hint
    refine ⟨by simpa using hhalt, ?_⟩
    split at h
    case h_1 i hi => exact .instruction hint i t hi h
    case h_2 r hr =>
      cases h
      exact .fault hint r hr

/-! ### The obligations -/

/-- Settles O47: a trap is `State.raise`, of an exception the instruction may raise. -/
theorem trapsArePrecise : Obligations.TrapsArePrecise := by
  intro i s t e h ht
  obtain ⟨he, info, rfl⟩ := exec_trapped h ht
  exact ⟨⟨info, s.raise_spec e info⟩, he⟩

/-- A store changes no byte outside its own, whatever it finds at its address. -/
theorem State.storeFrom_memoryOutside (s : State) (addr : Word) (n : Width) (v : Word) :
    SameMemoryOutside (s.offset addr) n.bytes s (s.storeFrom addr n v) := by
  rcases s.storeFrom_cases addr n v with ⟨b, h⟩ | ⟨m, h⟩ | ⟨-, h⟩ | h | h
  all_goals rw [h]
  case inr.inr.inr.inl => exact s.busStore_read_other (s.offset addr) n v
  all_goals exact fun a _ => rfl

/-- Settles O48: memory changes by the instructions of `writeMnemonics` only, and a store writes through the arbiter. -/
theorem onlyStoresChangeMemory : Obligations.OnlyStoresChangeMemory := by
  intro i s t h
  refine ⟨fun hm off => ?same, ?sb, ?sh, ?sw⟩
  case same =>
    rcases exec_ends h with hret | ⟨e, info, -, rfl⟩
    · rw [hret.memory hm]
    · rfl
  all_goals
    rintro rs1 rs2 imm rfl
    cases h
  case sb => exact s.storeFrom_memoryOutside _ .byte _
  case sh => exact s.storeFrom_memoryOutside _ .half _
  case sw => exact s.storeFrom_memoryOutside _ .word _

/-- Settles O49: neither retiring nor trap entry touches the reservation, LR.W and SC.W apart. -/
theorem onlyLrAndScChangeTheReservation : Obligations.OnlyLrAndScChangeTheReservation := by
  refine ⟨fun i s t h hlr hsc => ?instruction, fun i s t e h ht => ?trap, fun s t h hint => ?interrupt⟩
  case instruction =>
    rcases exec_ends h with hret | ⟨e, info, -, rfl⟩
    · exact hret.reservation hlr hsc
    · exact ⟨rfl, rfl⟩
  case trap =>
    obtain ⟨-, info, rfl⟩ := exec_trapped h ht
    exact ⟨rfl, rfl⟩
  case interrupt =>
    obtain ⟨c, k, closed, -, -, hu⟩ := s.hostTurn_frame
    cases (step_cases h).2 with
    | interrupt => rw [hu]; exact ⟨rfl, rfl⟩
    | instruction hno | fault hno => simp [hno] at hint

/-- Settles O50: a trap goes to mode 3, MRET takes the mode from MPP, and any other instruction that retires keeps it. -/
theorem modeChangesOnlyByTrapAndReturn : Obligations.ModeChangesOnlyByTrapAndReturn := by
  intro i s t h
  rcases eq_or_ne i .mret with rfl | hi
  · cases h
    exact .inl ⟨rfl, rfl⟩
  · rcases exec_ends h with hret | ⟨e, info, -, rfl⟩
    · refine .inr (.inr ⟨hi, ?_, hret.priv hi⟩)
      have hnt := hret.not_trapped
      cases hr : t.result with
      | trapped e => exact absurd hr (hnt e)
      | normal | powerOff | resetRequest => rfl
    · exact .inr (.inl ⟨⟨e, rfl⟩, rfl⟩)

/-- Settles O52: of a state that is not halted, `halted` is set by the result alone, and only a store to SYSCON_ADDR gives such a
result. -/
theorem runEndsOnlyByRequest : Obligations.RunEndsOnlyByRequest := by
  intro i s t hrun h
  rcases exec_ends h with hret | ⟨e, info, -, rfl⟩
  case inr => simp [hrun]
  case inl =>
    have hends : t.halted = true ↔ t.result = .powerOff ∨ t.result = .resetRequest := by
      rw [hret.halted, hrun, Bool.false_or, StepResult.endsRun_iff]
    refine ⟨hends, fun ht => ?_⟩
    have hresult := hends.mp ht
    rcases hret.result with hnormal | ⟨rs1, rs2, imm, n, hi, haddr, hreq⟩
    · simp [hnormal] at hresult
    · refine ⟨rs1, rs2, imm, n.truncate (s.x rs2), ?width, haddr, ?value⟩
      case width =>
        rcases hi with ⟨rfl, hi⟩ | ⟨rfl, hi⟩ | ⟨rfl, hi⟩
        · exact .inr (.inr ⟨hi, by rw [Width.truncate_byte_eq, BitVec.toNat_ofNat]; omega⟩)
        · exact .inr (.inl ⟨hi, by rw [Width.truncate_half_eq, BitVec.toNat_ofNat]; omega⟩)
        · exact .inl ⟨hi, rfl⟩
      case value =>
        rcases requestOf_cases s.cfg.toParams (n.truncate (s.x rs2)) with ⟨-, hw⟩ | ⟨-, hw⟩ | h
        · exact .inl hw
        · exact .inr hw
        · simp [hreq, h] at hresult

end Sys2Proof.Machine
end

section
/-! SUPPORT. Proofs of the rules of the memory image and its accesses (`20_memory.md`): a load after a store, the canonical form, the
control addresses, and the loads, stores and fetches of RAM. -/

namespace Sys2Proof.Machine

/-! ### A load after a store (R43, R66) -/

/-- A load of bytes that are those of a word from its byte `j` on is that piece of the word. -/
theorem Memory.load_of_bytes (m : Memory) (off j : Nat) (n : Width) (v : Word)
    (h : ∀ k, k < n.bytes → m.read (off + k) = v.extractLsb' (8 * j + 8 * k) 8) :
    m.load off n = (v.extractLsb' (8 * j) (8 * n.bytes)).setWidth 32 := by
  cases n
  case byte =>
    exact congrArg (BitVec.setWidth 32) (h 0 (by decide))
  case half =>
    rw [Memory.load, h 1 (by decide), show m.read off = v.extractLsb' (8 * j) 8 from h 0 (by decide)]
    exact congrArg (BitVec.setWidth 32) (extract_glue v (8 * j) 8 8)
  case word =>
    rw [Memory.load, h 1 (by decide), h 2 (by decide), h 3 (by decide),
      show m.read off = v.extractLsb' (8 * j) 8 from h 0 (by decide)]
    rw [extract_glue v (8 * j + 16) 8 8, extract_glue v (8 * j + 8) _ 8, extract_glue v (8 * j) _ 8]
    exact (BitVec.setWidth_eq _).symm

theorem Width.truncate_eq (n : Width) (v : Word) : n.truncate v = (v.extractLsb' 0 (8 * n.bytes)).setWidth 32 := by
  cases n
  case byte => rfl
  case half => rfl
  case word => exact ((BitVec.setWidth_eq _).trans (extract_all v)).symm

/-- A narrower or equal load inside what was just stored is the piece of the value it covers. -/
theorem State.busLoad_busStore (s : State) (off j : Nat) (n n' : Width) (v : Word) (hwf : s.mem.wf = true)
    (hin : off + n.bytes ≤ s.cfg.dramSize) (hj : j + n'.bytes ≤ n.bytes) :
    (s.busStore off n v).busLoad (off + j) n' = (v.extractLsb' (8 * j) (8 * n'.bytes)).setWidth 32 := by
  rw [State.busLoad_inRange _ _ _ (by simp only [State.busStore_cfg]; omega)]
  refine Memory.load_of_bytes _ _ j n' v fun k hk => ?_
  rw [Nat.add_assoc, ← Nat.mul_add]
  exact s.busStore_read_same off n v (j + k) hwf hin (by omega)

theorem State.busLoad_busStore_same (s : State) (off : Nat) (n : Width) (v : Word) (hwf : s.mem.wf = true)
    (hin : off + n.bytes ≤ s.cfg.dramSize) : (s.busStore off n v).busLoad off n = n.truncate v :=
  (s.busLoad_busStore off 0 n n v hwf hin (by omega)).trans (n.truncate_eq v).symm

/-- Settles O27: every load in the statement covers a piece of what was just stored. -/
theorem loadAfterStore : Obligations.LoadAfterStore := by
  intro s off v hwf hin
  refine ⟨fun n => ?same, fun k hk => ?byte, fun k hk => ?half⟩
  case same =>
    have hn : n.bytes ≤ 4 := by cases n <;> decide
    exact s.busLoad_busStore_same off n v hwf (by omega)
  case byte => exact s.busLoad_busStore off k .word .byte v hwf hin (by simp only [Width.bytes]; omega)
  case half => exact s.busLoad_busStore off k .word .half v hwf hin (by simp only [Width.bytes]; omega)

/-- Settles O28: a store keeps the canonical form and the bound, and the canonical form is determined by the reads. -/
theorem imageStaysCanonical : Obligations.ImageStaysCanonical :=
  ⟨fun s off n v hwf hbelow => ⟨s.busStore_wf off n v hwf, s.busStore_below off n v hbelow⟩, fun _ _ => Memory.ext_of_wf⟩

/-! ### The control addresses (R6, R49) -/

/-- The control load address of a port (R49). -/
def LoadPort.addr (p : Params) : LoadPort → Word
  | .uart => uartAddr
  | .uartStatus => uartStatusAddr
  | .id => idAddr
  | .timerL => p.timerLAddr
  | .timerH => p.timerHAddr
  | .matchL => p.matchLAddr
  | .matchH => p.matchHAddr

/-- The control addresses of a configuration are distinct (R6), so each load address selects its own port. -/
theorem loadPort_addr (c : Config) (q : LoadPort) : loadPort c.toParams (q.addr c.toParams) = some q := by
  obtain ⟨-, -, -, -, hctl, -⟩ := c.valid
  have h : [uartAddr, uartStatusAddr, idAddr, c.timerLAddr, c.timerHAddr, c.matchLAddr, c.matchHAddr].Nodup :=
    hctl.sublist (.cons_cons _ (.cons_cons _ (.cons_cons _ (.cons _ (.refl _)))))
  -- Reversed, it says of each address that it is none of those compared before it.
  replace h := List.nodup_reverse.mpr h
  simp only [List.reverse_cons, List.reverse_nil, List.nil_append, List.cons_append, List.nodup_cons, List.mem_cons,
    List.not_mem_nil, or_false, not_or] at h
  cases q <;> simp [loadPort, LoadPort.addr, h]

theorem loadPort_eq_none {p : Params} {a : Word}
    (h : a ∉ [uartAddr, uartStatusAddr, idAddr, p.timerLAddr, p.timerHAddr, p.matchLAddr, p.matchHAddr]) :
    loadPort p a = none := by
  simp only [List.mem_cons, List.not_mem_nil, or_false, not_or] at h
  simp [loadPort, h]

theorem storePort_eq_none {p : Params} {a : Word} (h : a ∉ [uartAddr, p.sysconAddr, p.matchLAddr, p.matchHAddr]) :
    storePort p a = none := by
  simp only [List.mem_cons, List.not_mem_nil, or_false, not_or] at h
  simp [storePort, h]

/-- Settles O29: the constraint of R6 that the control addresses are distinct makes the order of the comparisons irrelevant. -/
theorem controlAddressesAreExact : Obligations.ControlAddressesAreExact := by
  intro c p
  exact ⟨loadPort_addr c .uart, loadPort_addr c .uartStatus, loadPort_addr c .id, loadPort_addr c .timerL, loadPort_addr c .timerH,
    loadPort_addr c .matchL, loadPort_addr c .matchH, fun _ => loadPort_eq_none, storePort_addr c .uart, storePort_addr c .syscon,
    storePort_addr c .matchL, storePort_addr c .matchH, fun _ => storePort_eq_none⟩

/-! ### Loads from RAM (R160 to R165) -/

theorem State.loadTo_ram (s : State) (rd : Reg) {addr : Word} (n : Width) (f : Word → Word)
    (hp : loadPort s.cfg.toParams addr = none) (hin : s.offset addr + n.bytes ≤ s.cfg.dramSize) :
    s.loadTo rd addr n f = s.writeback rd (f (s.busLoad (s.offset addr) n)) := by
  simp only [State.loadTo, s.memRead_ram addr n hp hin]

/-- A narrow value is the low bits of its zero extension. -/
theorem extractLsb'_setWidth_self {n : Nat} (hn : n ≤ 32) (b : BitVec n) : (b.setWidth 32).extractLsb' 0 n = b :=
  (BitVec.extractLsb'_setWidth_of_le ((Nat.zero_add n).trans_le hn)).trans (extract_all b)

theorem signExtendLoaded_byte_setWidth (b : Byte) : signExtendLoaded .byte (b.setWidth 32) = BitVec.ofInt 32 b.toInt :=
  congrArg (BitVec.signExtend 32) (extractLsb'_setWidth_self (by decide) b)

theorem signExtendLoaded_half_setWidth (h : BitVec 16) : signExtendLoaded .half (h.setWidth 32) = BitVec.ofInt 32 h.toInt :=
  congrArg (BitVec.signExtend 32) (extractLsb'_setWidth_self (by decide) h)

theorem zeroExtendLoaded_byte_setWidth (b : Byte) : zeroExtendLoaded .byte (b.setWidth 32) = BitVec.ofNat 32 b.toNat := by
  rw [BitVec.ofNat_toNat]
  exact congrArg (BitVec.setWidth 32) (extractLsb'_setWidth_self (by decide) b)

theorem zeroExtendLoaded_half_setWidth (h : BitVec 16) : zeroExtendLoaded .half (h.setWidth 32) = BitVec.ofNat 32 h.toNat := by
  rw [BitVec.ofNat_toNat]
  exact congrArg (BitVec.setWidth 32) (extractLsb'_setWidth_self (by decide) h)

/-- Settles O30: in RAM the arbiter reads the image, whose bytes the extension puts together. -/
theorem loadsFromRam : Obligations.LoadsFromRam := by
  intro s rd rs1 imm ea b hp
  have load {i : Instr} {n : Width} {f : Word → Word} {v : Word} (hin : s.offset ea + n.bytes ≤ s.cfg.dramSize)
      (he : exec i s = .next (s.loadTo rd (s.loadAddr rs1 imm) n f)) (hv : f (s.busLoad (s.offset ea) n) = v) :
      Completes i s (WritesOneRegister rd v (s.pc + 4) s) := by
    rw [s.loadAddr_eq, s.loadTo_ram rd n f hp hin, hv] at he
    exact ⟨_, he, s.writeback_spec rd v⟩
  refine ⟨fun hin => ⟨load (n := .byte) hin rfl ?_, load (n := .byte) hin rfl ?_⟩,
    fun hin => ⟨load (n := .half) hin rfl ?_, load (n := .half) hin rfl ?_⟩,
    fun hin => load (n := .word) hin rfl (s.load_word ea hin)⟩
  · rw [s.load_byte ea hin, signExtendLoaded_byte_setWidth]
  · rw [s.load_byte ea hin, zeroExtendLoaded_byte_setWidth]
  · rw [s.load_half ea hin, signExtendLoaded_half_setWidth]
  · rw [s.load_half ea hin, zeroExtendLoaded_half_setWidth]

/-- Retiring keeps what an update before it kept. -/
theorem SameSystem.retire {s u : State} (h : SameSystem s u) : SameSystem s u.retire :=
  ⟨⟨h.status.priv, h.status.mie, h.status.mpie, h.status.mpp⟩, ⟨h.software.mie, h.software.mtvec, h.software.mscratch⟩,
    ⟨h.trap.mepc, h.trap.mcause, h.trap.mtval⟩, h.timermatch, ⟨h.reservation.valid, h.reservation.addr⟩,
    ⟨h.keyboard.kbd, h.keyboard.eofLatch, h.keyboard.inputClosed⟩, h.console, ⟨h.run.cfg, h.run.hostInputs, h.run.stepTaken⟩⟩

/-! ### Stores to RAM (R160, R166 to R168) -/

theorem State.storeFrom_ram (s : State) {addr : Word} (n : Width) (v : Word) (hp : storePort s.cfg.toParams addr = none)
    (hin : s.offset addr + n.bytes ≤ s.cfg.dramSize) :
    s.storeFrom addr n v = (s.busStore (s.offset addr) n v).retire :=
  State.storeFrom_of_memWrite (s.memWrite_ram addr n v hp hin)

/-- Settles O32: in RAM the arbiter writes the image, at the offset of the effective address. -/
theorem storesToRam : Obligations.StoresToRam := by
  intro s rs1 rs2 imm hwf ea stored
  have store {n : Width} (hp : storePort s.cfg.toParams ea = none) (hin : s.offset ea + n.bytes ≤ s.cfg.dramSize) :
      stored n.bytes (s.storeFrom ea n (s.x rs2)) := by
    rw [s.storeFrom_ram n _ hp hin]
    obtain ⟨-, hret, -, -⟩ := (s.busStore (s.offset ea) n (s.x rs2)).retire_spec
    exact ⟨fun k hk => s.store_ramByte ea n _ k hwf hin hk, s.busStore_read_other _ n _, fun _ => rfl,
      ⟨hret.pc, hret.cycle, hret.result, hret.halted⟩, (s.busStore_sameSystem _ n _).retire⟩
  exact ⟨s.storeAddr_eq rs1 imm, fun hp => ⟨fun hin => ⟨_, rfl, store (n := .byte) hp hin⟩,
    fun hin => ⟨_, rfl, store (n := .half) hp hin⟩, fun hin => ⟨_, rfl, store (n := .word) hp hin⟩⟩⟩

/-! ### Fetches (R44) -/

/-- A fetch inside RAM at a multiple of 4 reads the image through the bus. -/
theorem State.fetchWord_aligned {s : State} {addr : Word} (hin : s.offset addr < s.cfg.dramSize)
    (halign : addr.extractLsb' 0 2 = 0) : s.fetchWord addr = .ok (s.busLoad (s.offset addr) .word) :=
  (if_neg (Nat.not_le.mpr hin)).trans (if_neg (not_not.mpr halign))

/-- A fetch that raises nothing is inside RAM and aligned. -/
theorem State.fetchWord_ok {s : State} {addr w : Word} (h : s.fetchWord addr = .ok w) :
    s.offset addr < s.cfg.dramSize ∧ addr.extractLsb' 0 2 = 0 ∧ w = s.busLoad (s.offset addr) .word := by
  unfold State.fetchWord at h
  split_ifs at h with hout halign
  cases h
  exact ⟨Nat.not_le.mp hout, not_not.mp halign, rfl⟩

@[simp] theorem State.retire_busLoad (s : State) (off : Nat) (n : Width) : s.retire.busLoad off n = s.busLoad off n := rfl

/-- Settles O13: the fetch is a word load where the store just wrote. -/
theorem fetchSeesTheStoreBeforeIt : Obligations.FetchSeesTheStoreBeforeIt := by
  intro s rs1 rs2 imm hwf hp hea halign hin
  have hstore : exec (.sw rs1 rs2 imm) s = .next (s.busStore (s.offset (s.pc + 4)) .word (s.x rs2)).retire := by
    rw [hea] at hp
    rw [← s.storeFrom_ram .word _ hp hin, ← hea]
    rfl
  have hlt : s.offset (s.pc + 4) < s.cfg.dramSize := by omega
  refine ⟨_, hstore, rfl, ?_⟩
  rw [State.retire_pc, State.busStore_pc, State.fetchWord_aligned (by exact hlt) halign]
  rw [State.retire_busLoad, State.retire_offset, State.busStore_offset, State.busLoad_busStore_same _ _ .word _ hwf hin]
  rfl

/-- The low two bits of an address as arithmetic. -/
theorem extractLsb'_two_eq_zero_iff (a : Word) : a.extractLsb' 0 2 = 0 ↔ a.toNat % 4 = 0 := by
  rw [BitVec.toNat_eq, BitVec.extractLsb'_toNat]
  rfl

/-- Settles O14: with an aligned RAM_BASE the offset of an aligned address is a multiple of 4, as DRAM_SIZE is. -/
theorem fetchStaysInsideTheImage : Obligations.FetchStaysInsideTheImage := by
  intro s addr w hbase h
  obtain ⟨hin, halign, rfl⟩ := State.fetchWord_ok h
  obtain ⟨hsize, -⟩ := s.cfg.valid
  have hoff : s.offset addr % 4 = 0 := by
    rw [extractLsb'_two_eq_zero_iff] at halign
    simp only [State.offset, BitVec.toNat_sub]
    omega
  have hend : s.offset addr + 4 ≤ s.cfg.dramSize := by omega
  exact ⟨hend, s.busLoad_inRange _ .word hend⟩

end Sys2Proof.Machine
end

section
/-! SUPPORT. Proofs of two rules over whole operations: the identity of division (`44_muldiv.md`) and the expansion of `li`
(`30_encoding.md` section 6). -/

namespace Sys2Proof.Machine

/-! ### Division (R180) -/

/-- A remainder is smaller in magnitude than its divisor. -/
theorem tmod_natAbs_lt (a : Word) {b : Word} (hb : b ≠ 0) : (a.toInt.tmod b.toInt).natAbs < b.toInt.natAbs := by
  rw [Int.natAbs_tmod]
  exact Nat.mod_lt _ (Int.natAbs_pos.mpr ((toInt_eq_zero_iff b).not.mpr hb))

/-- The remainder of REM is the exact one of a division that rounds toward zero, in the overflow case too. -/
theorem remSigned_toInt (a : Word) {b : Word} (hb : b ≠ 0) : (remSigned a b).toInt = a.toInt.tmod b.toInt := by
  unfold remSigned
  rw [if_neg hb]
  split
  case isTrue h =>
    obtain ⟨rfl, rfl⟩ := h
    decide
  case isFalse =>
    have hlt := tmod_natAbs_lt a hb
    have hlo := BitVec.le_toInt b
    have hhi := BitVec.toInt_lt (x := b)
    rw [← Int.tmod_def]
    exact BitVec.toInt_ofInt_eq_self (by decide) (by omega) (by omega)

theorem divSigned_identity (a : Word) {b : Word} (hb : b ≠ 0) : a = b * divSigned a b + remSigned a b := by
  unfold divSigned remSigned
  rw [if_neg hb, if_neg hb]
  split
  case isTrue h =>
    obtain ⟨rfl, rfl⟩ := h
    decide
  case isFalse =>
    calc a = BitVec.ofInt 32 (b.toInt * a.toInt.tdiv b.toInt + (a.toInt - b.toInt * a.toInt.tdiv b.toInt)) := by
          rw [add_sub_cancel, BitVec.ofInt_toInt]
      _ = _ := by rw [BitVec.ofInt_add, BitVec.ofInt_mul, BitVec.ofInt_toInt]

theorem remSigned_natAbs_lt (a : Word) {b : Word} (hb : b ≠ 0) : (remSigned a b).toInt.natAbs < b.toInt.natAbs := by
  rw [remSigned_toInt a hb]
  exact tmod_natAbs_lt a hb

theorem remSigned_nonneg {a b : Word} (hb : b ≠ 0) (ha : a.toInt ≥ 0) : (remSigned a b).toInt ≥ 0 := by
  rw [remSigned_toInt a hb]
  exact Int.tmod_nonneg _ ha

theorem remSigned_nonpos {a b : Word} (hb : b ≠ 0) (ha : a.toInt ≤ 0) : (remSigned a b).toInt ≤ 0 := by
  have h := Int.tmod_nonneg b.toInt (Int.neg_nonneg_of_nonpos ha)
  rw [Int.neg_tmod] at h
  rw [remSigned_toInt a hb]
  omega

theorem remUnsigned_toNat (a : Word) {b : Word} (hb : b ≠ 0) : (remUnsigned a b).toNat = a.toNat % b.toNat := by
  rw [remUnsigned, if_neg hb, BitVec.toNat_ofNat]
  exact Nat.mod_eq_of_lt (Nat.lt_of_le_of_lt (Nat.mod_le _ _) a.isLt)

theorem divUnsigned_identity (a : Word) {b : Word} (hb : b ≠ 0) : a = b * divUnsigned a b + remUnsigned a b := by
  unfold divUnsigned remUnsigned
  rw [if_neg hb, if_neg hb]
  calc a = BitVec.ofNat 32 (b.toNat * (a.toNat / b.toNat) + a.toNat % b.toNat) := by
        rw [Nat.div_add_mod, BitVec.ofNat_toNat, BitVec.setWidth_eq]
    _ = _ := by rw [BitVec.ofNat_add, BitVec.ofNat_mul, BitVec.ofNat_toNat, BitVec.setWidth_eq]

/-- Settles O23: the four instructions write back the quotient and the remainder, and `rd` is not x0. -/
theorem divisionIdentity : Obligations.DivisionIdentity := by
  intro s rd rs1 rs2 hrd hb
  refine ⟨⟨_, _, rfl, rfl, ?_⟩, ⟨_, _, rfl, rfl, ?_⟩⟩
  all_goals simp only [State.writeback_x_self, if_neg hrd]
  · exact ⟨divSigned_identity _ hb, remSigned_natAbs_lt _ hb, remSigned_nonneg hb, remSigned_nonpos hb⟩
  · refine ⟨divUnsigned_identity _ hb, ?_⟩
    rw [remUnsigned_toNat _ hb]
    exact Nat.mod_lt _ (Nat.pos_of_ne_zero ((toNat_eq_zero_iff _).not.mpr hb))

/-! ### The expansion of `li` (R85) -/

/-- The low 12 bits, read as signed, are the distance to the nearest multiple of 4096 that LUI can load. -/
theorem immU_hi20_add_immI_lo12 (imm : Word) : immU (hi20 imm) + immI (lo12 imm) = imm := by
  apply BitVec.eq_of_toNat_eq
  rw [immU_eq, immI_eq, BitVec.toNat_add, BitVec.toNat_ofNat, BitVec.toNat_ofInt, BitVec.toInt_eq_toNat_cond]
  have h2048 : (0x800 : Word).toNat = 2048 := rfl
  simp only [hi20, lo12, BitVec.extractLsb'_toNat, BitVec.toNat_add, h2048, Nat.shiftRight_eq_div_pow]
  omega

/-- A value in the range of ADDI is the sign extension of its low 12 bits. -/
theorem immI_lo12 {imm : Word} (h : fitsAddi imm = true) : immI (lo12 imm) = imm := by
  simp only [fitsAddi, Bool.and_eq_true, decide_eq_true_eq, BitVec.toInt_eq_toNat_cond] at h
  apply BitVec.eq_of_toNat_eq
  rw [immI_eq, BitVec.toNat_ofInt, BitVec.toInt_eq_toNat_cond]
  simp only [lo12, BitVec.extractLsb'_toNat, Nat.shiftRight_eq_div_pow]
  omega

/-- Settles O60: one ADDI, one LUI, or both, by the size of the immediate; with both the ADDI reads what the LUI wrote. -/
theorem loadImmediateExpansionLoads : Obligations.LoadImmediateExpansionLoads := by
  intro s rd imm hrd
  have writes (u : State) (v : Word) : (u.writeback rd v).x rd = v := by rw [State.writeback_x_self, if_neg hrd]
  simp only [Pseudo.expand]
  split_ifs with hfits hlo
  · refine ⟨_, rfl, ?_, fun r => s.writeback_x_other rd r _, fun _ => rfl⟩
    rw [writes, State.x_zero]
    exact (BitVec.zero_add _).trans (immI_lo12 hfits)
  · refine ⟨_, rfl, ?_, fun r => s.writeback_x_other rd r _, fun _ => rfl⟩
    have h := immU_hi20_add_immI_lo12 imm
    rw [hlo] at h
    rw [writes]
    exact (BitVec.add_zero _).symm.trans h
  · refine ⟨_, rfl, ?_, fun r hr => ?_, fun _ => rfl⟩
    · rw [writes, writes, immU_hi20_add_immI_lo12]
    · rw [State.writeback_x_other _ rd r _ hr, State.writeback_x_other _ rd r _ hr]

end Sys2Proof.Machine
end

section
/-! SUPPORT. Proof that the privilege mode permits and forbids nothing (`60_exceptions.md` section 5): no operation of an instruction but
trap entry and ECALL reads `priv`. -/

namespace Sys2Proof.Machine

/-- The state with another mode. -/
def State.withPriv (s : State) (p : BitVec 2) : State := { s with priv := p }

/-- The states differ at most in `priv` and MPP, and the steps that gave them returned the same. -/
def AgreeButMode (t u : State) : Prop := EqualButMode t u ∧ t.result = u.result

section
variable (s : State) (p : BitVec 2)

/-! ### The reads and writes of an instruction, in another mode -/

theorem State.readKey_withPriv (none : Word) :
    (s.withPriv p).readKey none = ((s.readKey none).1, (s.readKey none).2.withPriv p) := by
  rw [State.readKey_eq, State.readKey_eq]
  rfl

theorem State.devLoad_withPriv (q : LoadPort) :
    (s.withPriv p).devLoad q = ((s.devLoad q).1, (s.devLoad q).2.withPriv p) := by
  cases q
  case uart => exact s.readKey_withPriv p 0
  all_goals rfl

theorem State.devStore_withPriv (q : StorePort) (w : Word) :
    (s.withPriv p).devStore q w = ((s.devStore q w).1.withPriv p, (s.devStore q w).2) := by
  cases q <;> rfl

theorem State.csrRead_withPriv (n : CsrNum) :
    (s.withPriv p).csrRead n = ((s.csrRead n).1, (s.csrRead n).2.withPriv p) := by
  unfold State.csrRead
  cases csrNamed n
  case keyRead => exact s.readKey_withPriv p 0xFFFFFFFF
  all_goals rfl

theorem State.csrWrite_withPriv (n : CsrNum) (v : Word) : (s.withPriv p).csrWrite n v = (s.csrWrite n v).withPriv p := by
  unfold State.csrWrite
  cases csrNamed n <;> rfl

/-! ### The shared operations of the instructions, in another mode -/

theorem State.raise_agree (r : Raised) : AgreeButMode (s.raise r) ((s.withPriv p).raise r) := ⟨rfl, rfl⟩

theorem State.commit_agree (result : StepResult) (next : Word) :
    AgreeButMode (s.commit result next) ((s.withPriv p).commit result next) := ⟨rfl, rfl⟩

theorem State.writeback_agree (rd : Reg) (v : Word) : AgreeButMode (s.writeback rd v) ((s.withPriv p).writeback rd v) := ⟨rfl, rfl⟩

theorem State.branch_agree (cond : Bool) (imm : BitVec 13) : AgreeButMode (s.branch cond imm) ((s.withPriv p).branch cond imm) := by
  cases cond
  · exact s.commit_agree p _ _
  · exact s.commit_agree p _ _

theorem State.loadTo_agree (rd : Reg) (addr : Word) (n : Width) (f : Word → Word) :
    AgreeButMode (s.loadTo rd addr n f) ((s.withPriv p).loadTo rd addr n f) := by
  cases hp : loadPort s.cfg.toParams addr with
  | some q =>
    rw [s.loadTo_port rd addr n f q hp, (s.withPriv p).loadTo_port rd addr n f q hp, State.devLoad_withPriv]
    exact State.writeback_agree _ p rd _
  | none =>
    rcases le_or_gt (s.offset addr + n.bytes) s.cfg.dramSize with h | h
    · rw [s.loadTo_ram rd n f hp h, (s.withPriv p).loadTo_ram rd n f hp h]
      exact s.writeback_agree p rd _
    · rw [State.loadTo_fault rd f hp h, State.loadTo_fault (s := s.withPriv p) rd f hp h]
      exact s.raise_agree p _

theorem State.storeFrom_agree (addr : Word) (n : Width) (v : Word) :
    AgreeButMode (s.storeFrom addr n v) ((s.withPriv p).storeFrom addr n v) := by
  cases hp : storePort s.cfg.toParams addr with
  | some q =>
    rw [s.storeFrom_port addr n v q hp, (s.withPriv p).storeFrom_port addr n v q hp, State.devStore_withPriv]
    exact State.commit_agree _ p _ _
  | none =>
    rcases le_or_gt (s.offset addr + n.bytes) s.cfg.dramSize with h | h
    · rw [s.storeFrom_ram n v hp h, (s.withPriv p).storeFrom_ram n v hp h]
      exact (s.busStore (s.offset addr) n v).commit_agree p _ _
    · rw [State.storeFrom_fault hp h, State.storeFrom_fault (s := s.withPriv p) hp h]
      exact s.raise_agree p _

theorem State.loadReserved_agree (rd rs1 : Reg) : AgreeButMode (s.loadReserved rd rs1) ((s.withPriv p).loadReserved rd rs1) := by
  rcases le_or_gt (s.offset (s.x rs1) + 4) s.cfg.dramSize with h | h
  · rw [s.loadReserved_ram rd rs1 h, (s.withPriv p).loadReserved_ram rd rs1 h]
    exact (s.reserve (s.x rs1)).writeback_agree p rd _
  · rw [s.loadReserved_fault rd rs1 h, (s.withPriv p).loadReserved_fault rd rs1 h]
    exact s.raise_agree p _

theorem State.storeConditional_agree (rd rs1 rs2 : Reg) :
    AgreeButMode (s.storeConditional rd rs1 rs2) ((s.withPriv p).storeConditional rd rs1 rs2) := by
  rcases le_or_gt (s.offset (s.x rs1) + 4) s.cfg.dramSize with h | h
  · by_cases hr : s.resvValid = true ∧ s.resvAddr = s.x rs1
    · rw [s.storeConditional_success rd rs1 rs2 h hr.1 hr.2, (s.withPriv p).storeConditional_success rd rs1 rs2 h hr.1 hr.2]
      exact (s.busStore (s.offset (s.x rs1)) .word (s.x rs2)).clearReservation.writeback_agree p rd 0
    · rw [s.storeConditional_failure rd rs1 rs2 h hr, (s.withPriv p).storeConditional_failure rd rs1 rs2 h hr]
      exact s.clearReservation.writeback_agree p rd 1
  · rw [s.storeConditional_fault rd rs1 rs2 h, (s.withPriv p).storeConditional_fault rd rs1 rs2 h]
    exact s.raise_agree p _

theorem State.amo_agree (rd rs1 rs2 : Reg) (f : Word → Word → Word) :
    AgreeButMode (s.amo rd rs1 rs2 f) ((s.withPriv p).amo rd rs1 rs2 f) := by
  rcases le_or_gt (s.offset (s.x rs1) + 4) s.cfg.dramSize with h | h
  · rw [s.amo_ram rd rs1 rs2 f h, (s.withPriv p).amo_ram rd rs1 rs2 f h]
    exact (s.busStore (s.offset (s.x rs1)) .word _).writeback_agree p rd _
  · rw [s.amo_fault rd rs1 rs2 f h, (s.withPriv p).amo_fault rd rs1 rs2 f h]
    exact s.raise_agree p _

theorem State.csrAccess_agree (rd : Reg) (n : CsrNum) (reads writes : Bool) (f : Word → Word) :
    AgreeButMode (s.csrAccess rd n reads writes f) ((s.withPriv p).csrAccess rd n reads writes f) := by
  have hread : (if reads then (s.withPriv p).csrRead n else (0, s.withPriv p)) =
      ((if reads then s.csrRead n else (0, s)).1, (if reads then s.csrRead n else (0, s)).2.withPriv p) := by
    cases reads
    · rfl
    · exact s.csrRead_withPriv p n
  simp only [State.csrAccess, hread]
  generalize (if reads then s.csrRead n else (0, s)) = read
  cases writes
  · exact read.2.writeback_agree p rd _
  · simp only [if_true, State.csrWrite_withPriv]
    exact State.writeback_agree _ p rd _

end

/-- Settles O51: the fetch reads no mode, and each arm of `exec` is a shared operation that gives agreeing states. -/
theorem privilegeForbidsNothing : Obligations.PrivilegeForbidsNothing := by
  intro s p
  refine ⟨rfl, fun i hi => ?_⟩
  cases i
  case ecall => exact absurd rfl hi
  case beq | bne | blt | bge | bltu | bgeu => exact ⟨_, _, rfl, rfl, s.branch_agree p _ _⟩
  case lb | lh | lw | lbu | lhu => exact ⟨_, _, rfl, rfl, s.loadTo_agree p _ _ _ _⟩
  case sb | sh | sw => exact ⟨_, _, rfl, rfl, s.storeFrom_agree p _ _ _⟩
  case lrW => exact ⟨_, _, rfl, rfl, s.loadReserved_agree p _ _⟩
  case scW => exact ⟨_, _, rfl, rfl, s.storeConditional_agree p _ _ _⟩
  case amoswapW | amoaddW | amoxorW | amoandW | amoorW | amominW | amomaxW | amominuW | amomaxuW =>
    exact ⟨_, _, rfl, rfl, s.amo_agree p _ _ _ _⟩
  case csrrw | csrrs | csrrc | csrrwi | csrrsi | csrrci => exact ⟨_, _, rfl, rfl, s.csrAccess_agree p _ _ _ _ _⟩
  -- A register write, a jump, a no-op, EBREAK or MRET.
  all_goals exact ⟨_, _, rfl, rfl, rfl, rfl⟩

end Sys2Proof.Machine
end

section
/-! SUPPORT. Proofs of the rules over every step (`40_step_loop.md`, `60_exceptions.md` sections 3, 4 and 6): the host's turn, what a step
counts and keeps, and the handler that traps for ever. -/

namespace Sys2Proof.Machine

/-! ### The host's turn (R272, R295) -/

theorem State.foldl_hostInput (acts : List HostInput) (s : State) :
    acts.foldl State.hostInput s =
      { s with
        cycle := s.cycle + (if s.stepTaken then BitVec.ofNat 64 (advancedTime acts) else 0)
        kbd := s.kbd ++ typedKeys acts
        inputClosed := s.inputClosed || decide (HostInput.closeInput ∈ acts) } := by
  induction acts generalizing s with
  | nil => simp [advancedTime, typedKeys]
  | cons act acts ih =>
    rw [List.foldl_cons, ih]
    cases act with
    | advanceTime d =>
      cases h : s.stepTaken
      · simp [s.hostInput_advanceTime_first d h, h, typedKeys]
      · simp [s.hostInput_advanceTime_between d h, h, advancedTime, typedKeys, State.advanceTime, BitVec.ofNat_add, BitVec.add_assoc]
    | keyTyped b => cases h : s.stepTaken <;> simp [State.hostInput, h, advancedTime, typedKeys]
    | closeInput => cases h : s.stepTaken <;> simp [State.hostInput, h, advancedTime, typedKeys]

/-- The host's turn, every field it changes by its value. -/
theorem State.hostTurn_eq (s : State) :
    s.hostTurn =
      { s with
        cycle := s.cycle + (if s.stepTaken then BitVec.ofNat 64 (advancedTime (s.hostInputs.headD [])) else 0)
        kbd := s.kbd ++ typedKeys (s.hostInputs.headD [])
        inputClosed := s.inputClosed || decide (HostInput.closeInput ∈ s.hostInputs.headD [])
        hostInputs := s.hostInputs.tail
        stepTaken := true } := by
  rw [State.hostTurn, State.foldl_hostInput]

/-- Settles O12: the acts in order, by their sum, their keys and whether one of them closes the stream. -/
theorem hostTurnOnlyAdvancesTimeAndInput : Obligations.HostTurnOnlyAdvancesTimeAndInput := by
  intro s acts t
  have ht : t = _ := s.hostTurn_eq
  rw [ht]
  exact ⟨rfl, rfl, rfl, rfl, rfl, rfl⟩

section
variable (s : State)

@[simp] theorem State.hostTurn_cfg : s.hostTurn.cfg = s.cfg := by rw [s.hostTurn_eq]
@[simp] theorem State.hostTurn_pc : s.hostTurn.pc = s.pc := by rw [s.hostTurn_eq]
@[simp] theorem State.hostTurn_mem : s.hostTurn.mem = s.mem := by rw [s.hostTurn_eq]
@[simp] theorem State.hostTurn_timermatch : s.hostTurn.timermatch = s.timermatch := by rw [s.hostTurn_eq]
@[simp] theorem State.hostTurn_halted : s.hostTurn.halted = s.halted := by rw [s.hostTurn_eq]
@[simp] theorem State.hostTurn_result : s.hostTurn.result = s.result := by rw [s.hostTurn_eq]
@[simp] theorem State.hostTurn_eofLatch : s.hostTurn.eofLatch = s.eofLatch := by rw [s.hostTurn_eq]

/-- A host that does nothing only marks that the step is taken. -/
theorem State.hostTurn_idle (h : s.hostInputs = []) : s.hostTurn = { s with stepTaken := true } := by
  simp [State.hostTurn_eq, h, advancedTime, typedKeys]

end

/-! ### Which steps exist, and what they run (R90, R98) -/

theorem hartStep_halted {s : State} (h : s.halted = true) : hartStep s = .refused .runEnded := by
  simp [hartStep, h]

theorem hartStep_instruction {s : State} {i : Instr} (hrun : s.halted = false) (hint : s.timerInterruptReady = false)
    (hf : s.fetchInstr = .ok i) : hartStep s = exec i s := by
  simp [hartStep, hrun, hint, hf]

theorem hartStep_next {s : State} (hrun : s.halted = false) : ∃ t, hartStep s = .next t := by
  cases hint : s.timerInterruptReady with
  | true => exact ⟨_, hartStep_timerInterrupt hrun hint⟩
  | false =>
    cases hf : s.fetchInstr with
    | error r => exact ⟨_, hartStep_fetch_error hrun hint hf⟩
    | ok i =>
      rw [hartStep_instruction hrun hint hf]
      exact exec_next i s

/-- Settles O7: the host's turn does not touch `halted`, and every case of a step answers a next state. -/
theorem stepIsTotalUntilTheRunEnds : Obligations.StepIsTotalUntilTheRunEnds := by
  intro s
  refine ⟨fun hrun => hartStep_next ?_, fun hend => hartStep_halted ?_⟩
  · rwa [s.hostTurn_halted]
  · rwa [s.hostTurn_halted]

theorem State.fetchInstr_ok {s : State} {w : Word} {i : Instr} (hw : s.fetchWord s.pc = .ok w) (hd : decodeWord w = .ok i) :
    s.fetchInstr = .ok i := by
  simp only [State.fetchInstr, hw, hd]

/-- Settles O6: the fetch puts the four bytes together. -/
theorem stepRunsTheDecodedInstruction : Obligations.StepRunsTheDecodedInstruction := by
  intro s b0 b1 b2 b3 i u hrun hint hin halign h0 h1 h2 h3 hd
  have hw : u.fetchWord u.pc = .ok (b3 ++ b2 ++ b1 ++ b0) := by
    rw [State.fetchWord_aligned (by omega) halign, u.busLoad_inRange _ .word hin, Memory.load, h0, h1, h2, h3]
  exact hartStep_instruction hrun hint (State.fetchInstr_ok hw hd)

/-! ### The counter and the latch (R53, R96) -/

theorem exec_cycle {i : Instr} {s t : State} (h : exec i s = .next t) : t.cycle = s.cycle + 1 := by
  rcases exec_ends h with hret | ⟨e, info, -, rfl⟩
  · exact hret.cycle
  · rfl

/-- Settles O11: the interrupt check comes first; what passes it retires or traps, and both count. -/
theorem cycleCountsSteps : Obligations.CycleCountsSteps := by
  intro s t h
  cases (step_cases h).2 with
  | interrupt hint => simp [hint]
  | instruction hint i t hi h => simp [hint, exec_cycle h]
  | fault hint r hr => simp [hint]

theorem exec_eofLatch {i : Instr} {s t : State} (h : exec i s = .next t) (hlatch : s.eofLatch = true) : t.eofLatch = true := by
  rcases exec_ends h with hret | ⟨e, info, -, rfl⟩
  · rcases hret.eofLatch with he | he <;> simp [he, hlatch]
  · exact hlatch

/-- Settles O53: no case of a step clears the latch, and with it set no key is pending. -/
theorem endOfInputIsLatched : Obligations.EndOfInputIsLatched := by
  intro s t hlatch h
  have hu : s.hostTurn.eofLatch = true := by rwa [s.hostTurn_eofLatch]
  have ht : t.eofLatch = true := by
    cases (step_cases h).2 with
    | interrupt | fault => exact hu
    | instruction hint i t hi h => exact exec_eofLatch h hu
  exact ⟨ht, by simp [State.keyPending, ht]⟩

/-! ### The invariant (R32, R35, R37, R53) -/

theorem State.Inv.hostTurn {s : State} (h : s.Inv) : s.hostTurn.Inv := by
  obtain ⟨hwf, hbelow, hlatch, hhalted⟩ := h
  rw [s.hostTurn_eq]
  exact ⟨hwf, hbelow, fun he => by simp [hlatch he], hhalted⟩

/-- A trap of a run that has not ended keeps the invariant. -/
theorem State.Inv.raise {s : State} (h : s.Inv) (hrun : s.halted = false) (r : Raised) : (s.raise r).Inv :=
  ⟨h.memCanonical, h.memInRange, h.latchMeansClosed, hrun⟩

theorem State.Inv.takeTimerInterrupt {s : State} (h : s.Inv) (hrun : s.halted = false) : s.takeTimerInterrupt.Inv :=
  ⟨h.memCanonical, h.memInRange, h.latchMeansClosed, hrun⟩

theorem State.Inv.exec {i : Instr} {s t : State} (h : s.Inv) (hrun : s.halted = false) (he : exec i s = .next t) :
    t.Inv ∧ t.cfg = s.cfg := by
  rcases exec_ends he with hret | ⟨e, info, -, rfl⟩
  · refine ⟨⟨hret.memCanonical h.memCanonical, ?range, ?latch, ?halted⟩, hret.cfg⟩
    case range =>
      rw [hret.cfg]
      exact hret.memInRange h.memInRange
    case latch =>
      rw [hret.inputClosed]
      intro hl
      rcases hret.eofLatch with he | he
      · exact h.latchMeansClosed (he ▸ hl)
      · rcases Bool.or_eq_true_iff.mp (he ▸ hl) with hs | hc
        · exact h.latchMeansClosed hs
        · exact hc
    case halted => rw [hret.halted, hrun, Bool.false_or]
  · exact ⟨h.raise hrun _, rfl⟩

theorem State.Inv.restart {s : State} (h : s.Inv) {img : List Byte} (hfits : img.length ≤ s.cfg.dramSize) :
    (s.loadImage img).resetHart.Inv :=
  ⟨imageFrom_wf img 0, imageFrom_below img 0 _ (by rwa [Nat.zero_add]), h.latchMeansClosed, rfl⟩

/-- Settles O55: the host's turn and each case of a step keep the invariant, and a start of a run establishes it anew. -/
theorem stepKeepsTheInvariant : Obligations.StepKeepsTheInvariant := by
  refine ⟨fun s t hinv h => ?step, fun s t img hinv h => ?restart⟩
  case step =>
    obtain ⟨hrun, hcase⟩ := step_cases h
    rw [← s.hostTurn_cfg]
    cases hcase with
    | interrupt => exact ⟨hinv.hostTurn.takeTimerInterrupt hrun, rfl⟩
    | instruction _ i t _ he => exact hinv.hostTurn.exec hrun he
    | fault _ r => exact ⟨hinv.hostTurn.raise hrun r, rfl⟩
  case restart =>
    rcases le_or_gt img.length s.cfg.dramSize with hfits | hlong
    · rw [s.restart_of_fits hfits] at h
      cases h
      exact ⟨hinv.restart hfits, rfl⟩
    · rw [s.restart_of_tooLong hlong] at h
      cases h

/-! ### A handler outside RAM (R261) -/

/-- The next step faults in its fetch and comes back to the same pc. -/
structure AtBadHandler (s : State) : Prop where
  running : s.halted = false
  silent : s.hostInputs = []
  outside : s.offset s.trapTarget ≥ s.cfg.dramSize
  pc : s.pc = s.trapTarget
  priv : s.priv = 3
  masked : s.statusMIE = false

theorem AtBadHandler.step {s : State} (h : AtBadHandler s) : step s = .next (s.hostTurn.raise ⟨.instrAccessFault, s.pc⟩) := by
  obtain ⟨hrun, hsilent, hout, hpc, hpriv, hmask⟩ := h
  have hu := s.hostTurn_idle hsilent
  have hint : s.hostTurn.timerInterruptReady = false := by simp [hu, State.timerInterruptReady, hpriv, hmask]
  have hf : s.hostTurn.fetchWord s.hostTurn.pc = .error ⟨.instrAccessFault, s.pc⟩ := by
    rw [s.hostTurn_pc]
    refine State.fetchWord_accessFault ?_
    rw [hu, hpc]
    exact hout
  exact hartStep_fetch_error (by rwa [s.hostTurn_halted]) hint (State.fetchInstr_fetchWord_error hf)

/-- After that step every further one changes `cycle` alone, whatever its value. -/
theorem AtBadHandler.step_again {s : State} (h : AtBadHandler s) (c : BitVec 64) :
    let t := s.hostTurn.raise ⟨.instrAccessFault, s.pc⟩
    Machine.step { t with cycle := c } = .next { t with cycle := c + 1 } := by
  obtain ⟨hrun, hsilent, hout, hpc, hpriv, hmask⟩ := h
  have hu := s.hostTurn_idle hsilent
  intro t
  have ht : AtBadHandler { t with cycle := c } := by
    simp only [t, hu]
    exact ⟨hrun, hsilent, hout, rfl, rfl, rfl⟩
  rw [ht.step, State.hostTurn_idle _ ht.silent]
  simp only [t, hu, State.raise, State.trapEntry, hpriv, hmask, hpc, State.trapTarget]

/-- A batch of steps each of which changes `cycle` alone. -/
theorem batch_of_step_cycle {t : State} (hrun : t.result.endsRun = false)
    (h : ∀ c, step { t with cycle := c } = .next { t with cycle := c + 1 }) (n : Nat) (c : BitVec 64) :
    batch n { t with cycle := c } = .next { t with cycle := c + BitVec.ofNat 64 n } := by
  induction n generalizing c with
  | zero => simp [batch]
  | succ n ih =>
    have hc : c + 1 + BitVec.ofNat 64 n = c + BitVec.ofNat 64 (n + 1) := by
      rw [Nat.add_comm n, BitVec.ofNat_add, ← BitVec.add_assoc]
      rfl
    simp only [batch, h, hrun, Bool.false_eq_true, if_false, ih, hc]

/-- Settles O54: the first step leaves a state that a further step changes in `cycle` alone. -/
theorem badHandlerTrapsForEver : Obligations.BadHandlerTrapsForEver := by
  intro s t hrun hsilent hout hpc hpriv hmask h
  have hbad : AtBadHandler s := ⟨hrun, hsilent, hout, hpc, hpriv, hmask⟩
  rw [hbad.step] at h
  cases h
  refine ⟨?_, fun n => batch_of_step_cycle rfl hbad.step_again n _⟩
  rw [← s.hostTurn_pc]
  exact s.hostTurn.raise_spec _ _

end Sys2Proof.Machine
end

section
/-! SUPPORT. Proofs of the rules over a run: the reservation from LR.W to SC.W (`45_atomics.md`), the values after reset and the first
step of a run (`70_reset_and_hazards.md`), x0 (`10_state.md`), and a trap followed by MRET (`60_exceptions.md` section 4). -/

namespace Sys2Proof.Machine

/-! ### The reservation from LR.W to SC.W (R212) -/

/-- The reservation of an address in RAM is held, and the image is canonical. -/
structure HoldsReservation (addr : Word) (s : State) : Prop where
  valid : s.resvValid = true
  held : s.resvAddr = addr
  inRange : s.offset addr + 4 ≤ s.cfg.dramSize
  canonical : s.mem.wf = true

theorem State.offset_congr {s t : State} (h : t.cfg = s.cfg) (a : Word) : t.offset a = s.offset a := by
  unfold State.offset
  rw [h]

theorem exec_keeps_reservation {i : Instr} {s t : State} {addr : Word} (h : exec i s = .next t) (hsc : i.mnemonic ≠ "SC.W")
    (hlr : i.mnemonic ≠ "LR.W") (hs : HoldsReservation addr s) : HoldsReservation addr t := by
  obtain ⟨hvalid, haddr, hin, hwf⟩ := hs
  rcases exec_ends h with hret | ⟨e, info, -, rfl⟩
  · obtain ⟨hv, ha⟩ := hret.reservation hlr hsc
    refine ⟨hv.trans hvalid, ha.trans haddr, ?_, hret.memCanonical hwf⟩
    rw [State.offset_congr hret.cfg, hret.cfg]
    exact hin
  · exact ⟨hvalid, haddr, hin, hwf⟩

theorem execAll_keeps_reservation {is : List Instr} {s t : State} {addr : Word} (h : execAll is s = .next t)
    (his : ∀ i ∈ is, i.mnemonic ≠ "SC.W" ∧ i.mnemonic ≠ "LR.W") (hs : HoldsReservation addr s) : HoldsReservation addr t := by
  induction is generalizing s with
  | nil =>
    cases h
    exact hs
  | cons i is ih =>
    obtain ⟨u, hu⟩ := exec_next i s
    simp only [execAll, hu] at h
    obtain ⟨⟨hsc, hlr⟩, hrest⟩ := List.forall_mem_cons.mp his
    exact ih h hrest (exec_keeps_reservation hu hsc hlr hs)

theorem loadReserved_holdsReservation {s : State} {rd rs1 : Reg} (hwf : s.mem.wf = true)
    (h : (s.loadReserved rd rs1).result = .normal) : HoldsReservation (s.x rs1) (s.loadReserved rd rs1) := by
  rcases le_or_gt (s.offset (s.x rs1) + 4) s.cfg.dramSize with hin | hout
  · rw [s.loadReserved_ram rd rs1 hin]
    exact ⟨rfl, rfl, hin, hwf⟩
  · rw [s.loadReserved_fault rd rs1 hout] at h
    cases h

/-- Settles O39, by induction over the instructions in between: each keeps the reservation and the image canonical. -/
theorem storeConditionalSucceedsAfterLoadReserved : Obligations.StoreConditionalSucceedsAfterLoadReserved := by
  intro s t u aq rl aq' rl' rd rs1 rd' rs1' rs2' between hwf hlr hnormal hbetween hall hx
  cases hlr
  obtain ⟨hvalid, haddr, hin, hwf⟩ := execAll_keeps_reservation hall hbetween (loadReserved_holdsReservation hwf hnormal)
  rw [← hx] at haddr hin ⊢
  refine ⟨_, congrArg Host.Outcome.next (u.storeConditional_success rd' rs1' rs2' hin hvalid haddr), rfl, ?zero, ?stored⟩
  case zero => rw [State.writeback_x_self, ite_self]
  case stored => exact u.busLoad_busStore_same (u.offset (u.x rs1')) .word (u.x rs2') hwf hin

/-! ### Reset and the first step (R36, R290, R295, R296) -/

/-- Settles O59: the registers are a vector of zeros; every other value is the field's own. -/
theorem resetValues : Obligations.ResetValues := by
  have hx (r : Reg) : State.reset.x r = 0 := by simp [State.x, State.reset]
  exact ⟨hx, rfl, rfl, rfl, rfl, rfl, rfl, rfl, rfl, rfl, rfl, rfl, rfl, rfl, rfl, rfl, rfl, rfl, fun _ => rfl, rfl⟩

/-- Settles O56: the empty image is canonical, and nothing is latched or halted. -/
theorem resetSatisfiesTheInvariant : Obligations.ResetSatisfiesTheInvariant :=
  ⟨State.reset_mem_wf, rfl, fun h => absurd h Bool.false_ne_true, rfl⟩

/-- No interrupt is ready while the compare register is clear (R265). -/
theorem State.timerInterruptReady_of_timermatch_zero {s : State} (h : s.timermatch = 0) : s.timerInterruptReady = false := by
  simp [State.timerInterruptReady, State.mtip, h]

/-- The word at RAM_BASE, when it is a multiple of 4, is the first four bytes of the image. -/
theorem State.fetchWord_ramBase (s : State) (hbase : s.cfg.ramBase.toNat % 4 = 0) :
    s.fetchWord s.cfg.ramBase = .ok (s.mem.read 3 ++ s.mem.read 2 ++ s.mem.read 1 ++ s.mem.read 0) := by
  obtain ⟨-, hsize, -⟩ := s.cfg.valid
  have hoff : s.offset s.cfg.ramBase = 0 := by simp [State.offset]
  rw [State.fetchWord_aligned (by omega) ((extractLsb'_two_eq_zero_iff _).mpr hbase), hoff,
    State.busLoad_inRange s 0 .word (by simp only [Width.bytes]; omega)]
  rfl

/-- Settles O58: before the first step the host's turn adds no time, and the state it leaves is that of the reset. -/
theorem nothingTouchesTheBlockBeforeTheFirstStep : Obligations.NothingTouchesTheBlockBeforeTheFirstStep := by
  intro s t img h u
  rcases le_or_gt img.length s.cfg.dramSize with hfits | hlong
  case inr =>
    rw [s.restart_of_tooLong hlong] at h
    cases h
  case inl =>
    rw [s.restart_of_fits hfits] at h
    cases h
    have hu : u = _ := (s.loadImage img).resetHart.hostTurn_eq
    have hcycle : u.cycle = 0 := by rw [hu]; rfl
    have hint : u.timerInterruptReady = false := State.timerInterruptReady_of_timermatch_zero (State.hostTurn_timermatch _)
    have hpc : u.pc = u.cfg.ramBase := by rw [State.hostTurn_pc, State.hostTurn_cfg]; rfl
    have hread (off : Nat) : u.mem.read off = img.getD off 0 := by
      rw [State.hostTurn_mem]
      exact s.read_loadImage img off
    refine ⟨?frame, hcycle, hint, State.hostTurn_pc _, fun hbase => ?fetch, fun v hv => ?count⟩
    case frame =>
      rw [hu]
      rfl
    case fetch =>
      rw [hpc, u.fetchWord_ramBase (by rw [State.hostTurn_cfg]; exact hbase), hread, hread, hread, hread]
    case count =>
      have hone : v.cycle = u.cycle + if u.timerInterruptReady then 0 else 1 := cycleCountsSteps _ v hv
      rw [hone, hint, hcycle]
      rfl

/-! ### x0, and a trap followed by MRET (R11, R262) -/

/-- Settles O15: x0 has no storage, so a write to it is lost. -/
theorem registerZeroIsHardWired : Obligations.RegisterZeroIsHardWired :=
  fun s r q v => ⟨s.x_zero, s.x_setX r q v⟩

/-- Settles O43: MRET reads back what trap entry saved. -/
theorem trapThenReturnRestores : Obligations.TrapThenReturnRestores :=
  fun _ _ _ _ => ⟨_, rfl, rfl, rfl, rfl, rfl, rfl, fun _ => rfl, fun _ => rfl, ⟨rfl, rfl⟩⟩

end Sys2Proof.Machine
end
